-- ==== Sys2Proof/Word.lean ====
section
/-! DEFINITION. The word types of the hardware: widths as 00_scope.md R6 gives them. -/

namespace Sys2Proof

/-- Accumulator, memory cell, port byte and `T` (R6 `DW`). -/
abbrev Byte := BitVec 8

/-- A general register, an address (R6 `RW`, `AW`). -/
abbrev Word := BitVec 16

/-- A register index or the value of `X` or `P` (R6 `SELW`). -/
abbrev Reg := BitVec 4

/-- A port number `p = opcode[2:0]` (R93). -/
abbrev Port := BitVec 3

/-- A tone channel index, the selector's upper five bits (R44, R254). -/
abbrev Chan := BitVec 5

/-- The four external flag inputs `EF(1)` to `EF(4)` (R39). -/
inductive ExtFlag where
  | ef1
  | ef2
  | ef3
  | ef4
  deriving DecidableEq, Repr

end Sys2Proof
end

