-- ==== Sys2Proof/Syntax.lean ====
section
/-! DEFINITION. The instructions: one constructor per row of spec/opcode_table.json, the row's mnemonic in lower
case (30_encoding.md R94). Formats and operand names are R91's. -/

namespace Sys2Proof

/-- An instruction of the `emu1802-core` set. The operand byte of `skp` is kept although the instruction never
reads it (R201; log 35). -/
inductive Instr where
  /-- 0x00, format F, R231. -/
  | idl
  /-- 0x01-0x0F, format N, R131. -/
  | ldn (n : Reg)
  /-- 0x10-0x1F, format N, R141. -/
  | inc (n : Reg)
  /-- 0x20-0x2F, format N, R142. -/
  | dec (n : Reg)
  /-- 0x30, format SB, R193. -/
  | br (a8 : Byte)
  /-- 0x31, format SB, R194. -/
  | bq (a8 : Byte)
  /-- 0x32, format SB, R195. -/
  | bz (a8 : Byte)
  /-- 0x33, format SB, R196. -/
  | bdf (a8 : Byte)
  /-- 0x34, format SB, R197. -/
  | b1 (a8 : Byte)
  /-- 0x35, format SB, R198. -/
  | b2 (a8 : Byte)
  /-- 0x36, format SB, R199. -/
  | b3 (a8 : Byte)
  /-- 0x37, format SB, R200. -/
  | b4 (a8 : Byte)
  /-- 0x38, format SB, R201. -/
  | skp (a8 : Byte)
  /-- 0x39, format SB, R202. -/
  | bnq (a8 : Byte)
  /-- 0x3A, format SB, R203. -/
  | bnz (a8 : Byte)
  /-- 0x3B, format SB, R204. -/
  | bnf (a8 : Byte)
  /-- 0x3C, format SB, R205. -/
  | bn1 (a8 : Byte)
  /-- 0x3D, format SB, R206. -/
  | bn2 (a8 : Byte)
  /-- 0x3E, format SB, R207. -/
  | bn3 (a8 : Byte)
  /-- 0x3F, format SB, R208. -/
  | bn4 (a8 : Byte)
  /-- 0x40-0x4F, format N, R132. -/
  | lda (n : Reg)
  /-- 0x50-0x5F, format N, R136. -/
  | str (n : Reg)
  /-- 0x60, format F, R143. -/
  | irx
  /-- 0x61-0x67, format IO, R238. -/
  | out (p : Port)
  /-- 0x68, format F, R240. -/
  | illegal
  /-- 0x69-0x6F, format IO, R239. -/
  | inp (p : Port)
  /-- 0x70, format F, R236. -/
  | ret
  /-- 0x71, format F, R237. -/
  | dis
  /-- 0x72, format F, R134. -/
  | ldxa
  /-- 0x73, format F, R137. -/
  | stxd
  /-- 0x74, format F, R174. -/
  | adc
  /-- 0x75, format F, R176. -/
  | sdb
  /-- 0x76, format F, R163. -/
  | shrc
  /-- 0x77, format F, R178. -/
  | smb
  /-- 0x78, format F, R234. -/
  | sav
  /-- 0x79, format F, R235. -/
  | mark
  /-- 0x7A, format F, R232. -/
  | req
  /-- 0x7B, format F, R233. -/
  | seq
  /-- 0x7C, format I, R180. -/
  | adci (imm8 : Byte)
  /-- 0x7D, format I, R182. -/
  | sdbi (imm8 : Byte)
  /-- 0x7E, format F, R165. -/
  | shlc
  /-- 0x7F, format I, R184. -/
  | smbi (imm8 : Byte)
  /-- 0x80-0x8F, format N, R144. -/
  | glo (n : Reg)
  /-- 0x90-0x9F, format N, R145. -/
  | ghi (n : Reg)
  /-- 0xA0-0xAF, format N, R146. -/
  | plo (n : Reg)
  /-- 0xB0-0xBF, format N, R147. -/
  | phi (n : Reg)
  /-- 0xC0, format LB, R213. -/
  | lbr (ahi alo : Byte)
  /-- 0xC1, format LB, R214. -/
  | lbq (ahi alo : Byte)
  /-- 0xC2, format LB, R215. -/
  | lbz (ahi alo : Byte)
  /-- 0xC3, format LB, R216. -/
  | lbdf (ahi alo : Byte)
  /-- 0xC4, format F, R217. -/
  | nop
  /-- 0xC5, format LS, R218. -/
  | lsnq
  /-- 0xC6, format LS, R219. -/
  | lsnz
  /-- 0xC7, format LS, R220. -/
  | lsnf
  /-- 0xC8, format LS, R221. -/
  | lskp
  /-- 0xC9, format LB, R222. -/
  | lbnq (ahi alo : Byte)
  /-- 0xCA, format LB, R223. -/
  | lbnz (ahi alo : Byte)
  /-- 0xCB, format LB, R224. -/
  | lbnf (ahi alo : Byte)
  /-- 0xCC, format LS, R225. -/
  | lsie
  /-- 0xCD, format LS, R226. -/
  | lsq
  /-- 0xCE, format LS, R227. -/
  | lsz
  /-- 0xCF, format LS, R228. -/
  | lsdf
  /-- 0xD0-0xDF, format N, R148. -/
  | sep (n : Reg)
  /-- 0xE0-0xEF, format N, R150. -/
  | sex (n : Reg)
  /-- 0xF0, format F, R133. -/
  | ldx
  /-- 0xF1, format F, R156. -/
  | or
  /-- 0xF2, format F, R157. -/
  | and
  /-- 0xF3, format F, R158. -/
  | xor
  /-- 0xF4, format F, R173. -/
  | add
  /-- 0xF5, format F, R175. -/
  | sd
  /-- 0xF6, format F, R162. -/
  | shr
  /-- 0xF7, format F, R177. -/
  | sm
  /-- 0xF8, format I, R135. -/
  | ldi (imm8 : Byte)
  /-- 0xF9, format I, R159. -/
  | ori (imm8 : Byte)
  /-- 0xFA, format I, R160. -/
  | ani (imm8 : Byte)
  /-- 0xFB, format I, R161. -/
  | xri (imm8 : Byte)
  /-- 0xFC, format I, R179. -/
  | adi (imm8 : Byte)
  /-- 0xFD, format I, R181. -/
  | sdi (imm8 : Byte)
  /-- 0xFE, format F, R164. -/
  | shl
  /-- 0xFF, format I, R183. -/
  | smi (imm8 : Byte)
  deriving DecidableEq, Repr

end Sys2Proof
end

