-- ==== Sys2Proof/WellFormed.lean ====
section
/-! DEFINITION. Which instruction terms have an encoding: the three constraints of 30_encoding.md R95 (R92, R93). -/

namespace Sys2Proof

/-- `0x00`, `0x60` and `0x68` are other encodings, so `LDN` has no `n = 0` and `OUT` and `INP` have no `p = 0`
(R95). Every other operand value is legal (R92, R101). -/
def Instr.wellFormed : Instr → Bool
  | .ldn n => n != 0#4
  | .out p => p != 0#3
  | .inp p => p != 0#3
  | .idl | .inc _ | .dec _ | .br _ | .bq _ | .bz _ | .bdf _ | .b1 _ | .b2 _ | .b3 _ | .b4 _ | .skp _
  | .bnq _ | .bnz _ | .bnf _ | .bn1 _ | .bn2 _ | .bn3 _ | .bn4 _ | .lda _ | .str _ | .irx | .illegal
  | .ret | .dis | .ldxa | .stxd | .adc | .sdb | .shrc | .smb | .sav | .mark | .req | .seq | .adci _
  | .sdbi _ | .shlc | .smbi _ | .glo _ | .ghi _ | .plo _ | .phi _ | .lbr _ _ | .lbq _ _ | .lbz _ _
  | .lbdf _ _ | .nop | .lsnq | .lsnz | .lsnf | .lskp | .lbnq _ _ | .lbnz _ _ | .lbnf _ _ | .lsie | .lsq
  | .lsz | .lsdf | .sep _ | .sex _ | .ldx | .or | .and | .xor | .add | .sd | .shr | .sm | .ldi _
  | .ori _ | .ani _ | .xri _ | .adi _ | .sdi _ | .shl | .smi _ => true

end Sys2Proof
end

