-- ==== Sys2Proof/Decode.lean ====
section
/-! DEFINITION. The decoder, total on bytes (30_encoding.md R94, R95, R102), and after it the encoder. -/

namespace Sys2Proof

/-- `opcode[7:4]`. -/
def opHi (op : Byte) : Reg := op.extractLsb' 4 4

/-- `opcode[3:0]`: the register index or the condition field (R92, R99). -/
def opLo (op : Byte) : Reg := op.extractLsb' 0 4

/-- `opcode[2:0]`: the port number (R93). -/
def opPort (op : Byte) : Port := op.extractLsb' 0 3

/-- 0x60-0x6F: bit 3 is the direction (R91, R93); port 0 is IRX or the illegal opcode (R95, R100). -/
def decodeIo (op : Byte) : Instr :=
  if op.getLsbD 3 then (if opPort op = 0#3 then .illegal else .inp (opPort op))
  else (if opPort op = 0#3 then .irx else .out (opPort op))

/-- 0x30-0x3F, the short branches: `c = opcode[3:0]` (R99, R190; log 11). -/
def decodeShort (n : Reg) (a : Byte) : Instr :=
  match n.toNat with
  | 0 => .br a
  | 1 => .bq a
  | 2 => .bz a
  | 3 => .bdf a
  | 4 => .b1 a
  | 5 => .b2 a
  | 6 => .b3 a
  | 7 => .b4 a
  | 8 => .skp a
  | 9 => .bnq a
  | 10 => .bnz a
  | 11 => .bnf a
  | 12 => .bn1 a
  | 13 => .bn2 a
  | 14 => .bn3 a
  | _ => .bn4 a

/-- 0x70-0x7F (R94). -/
def decode7 (n : Reg) (a : Byte) : Instr :=
  match n.toNat with
  | 0 => .ret
  | 1 => .dis
  | 2 => .ldxa
  | 3 => .stxd
  | 4 => .adc
  | 5 => .sdb
  | 6 => .shrc
  | 7 => .smb
  | 8 => .sav
  | 9 => .mark
  | 10 => .req
  | 11 => .seq
  | 12 => .adci a
  | 13 => .sdbi a
  | 14 => .shlc
  | _ => .smbi a

/-- 0xC0-0xCF, long branches, long skips and the no-operation (R99, R210; log 12). -/
def decodeLong (n : Reg) (a b : Byte) : Instr :=
  match n.toNat with
  | 0 => .lbr a b
  | 1 => .lbq a b
  | 2 => .lbz a b
  | 3 => .lbdf a b
  | 4 => .nop
  | 5 => .lsnq
  | 6 => .lsnz
  | 7 => .lsnf
  | 8 => .lskp
  | 9 => .lbnq a b
  | 10 => .lbnz a b
  | 11 => .lbnf a b
  | 12 => .lsie
  | 13 => .lsq
  | 14 => .lsz
  | _ => .lsdf

/-- 0xF0-0xFF (R94, R96). -/
def decodeF (n : Reg) (a : Byte) : Instr :=
  match n.toNat with
  | 0 => .ldx
  | 1 => .or
  | 2 => .and
  | 3 => .xor
  | 4 => .add
  | 5 => .sd
  | 6 => .shr
  | 7 => .sm
  | 8 => .ldi a
  | 9 => .ori a
  | 10 => .ani a
  | 11 => .xri a
  | 12 => .adi a
  | 13 => .sdi a
  | 14 => .shl
  | _ => .smi a

/-- The instruction whose opcode byte is `op` and whose next two bytes are `a` and `b` (used as operand bytes
where the format has them). The opcode byte alone selects the row (R90, R113). -/
def decodeBytes (op a b : Byte) : Instr :=
  let n := opLo op
  match (opHi op).toNat with
  | 0 => if n = 0#4 then .idl else .ldn n
  | 1 => .inc n
  | 2 => .dec n
  | 3 => decodeShort n a
  | 4 => .lda n
  | 5 => .str n
  | 6 => decodeIo op
  | 7 => decode7 n a
  | 8 => .glo n
  | 9 => .ghi n
  | 10 => .plo n
  | 11 => .phi n
  | 12 => decodeLong n a b
  | 13 => .sep n
  | 14 => .sex n
  | _ => decodeF n a

/-- The instruction's length in bytes (R90). -/
def Instr.length : Instr → Nat
  | .br _ | .bq _ | .bz _ | .bdf _ | .b1 _ | .b2 _ | .b3 _ | .b4 _ | .skp _ | .bnq _ | .bnz _ | .bnf _
  | .bn1 _ | .bn2 _ | .bn3 _ | .bn4 _ | .adci _ | .sdbi _ | .smbi _ | .ldi _ | .ori _ | .ani _ | .xri _
  | .adi _ | .sdi _ | .smi _ => 2
  | .lbr _ _ | .lbq _ _ | .lbz _ _ | .lbdf _ _ | .lbnq _ _ | .lbnz _ _ | .lbnf _ _ => 3
  | .idl | .ldn _ | .inc _ | .dec _ | .lda _ | .str _ | .irx | .out _ | .illegal | .inp _ | .ret | .dis
  | .ldxa | .stxd | .adc | .sdb | .shrc | .smb | .sav | .mark | .req | .seq | .shlc | .glo _ | .ghi _
  | .plo _ | .phi _ | .nop | .lsnq | .lsnz | .lsnf | .lskp | .lsie | .lsq | .lsz | .lsdf | .sep _
  | .sex _ | .ldx | .or | .and | .xor | .add | .sd | .shr | .sm | .shl => 1

/-- Why a byte string holds no instruction: there is no opcode byte, or an operand byte is missing. Every opcode
value has a row (R102; 0x68's is `illegal`). -/
inductive DecodeError where
  | noOpcode
  | operandMissing (op : Byte)
  deriving DecidableEq, Repr

/-- The first instruction of a byte string and the bytes after it (R90, R102). -/
def decode : List Byte → Except DecodeError (Instr × List Byte)
  | [] => .error .noOpcode
  | op :: rest =>
    let i := decodeBytes op (rest.getD 0 0) (rest.getD 1 0)
    if i.length ≤ rest.length + 1 then .ok (i, rest.drop (i.length - 1)) else .error (.operandMissing op)

/-- The instruction's bytes, lowest address first (R91, R94, R98). -/
def encode : Instr → List Byte
  | .idl => [0x00#8]
  | .ldn n => [0x0#4 ++ n]
  | .inc n => [0x1#4 ++ n]
  | .dec n => [0x2#4 ++ n]
  | .br a8 => [0x30#8, a8]
  | .bq a8 => [0x31#8, a8]
  | .bz a8 => [0x32#8, a8]
  | .bdf a8 => [0x33#8, a8]
  | .b1 a8 => [0x34#8, a8]
  | .b2 a8 => [0x35#8, a8]
  | .b3 a8 => [0x36#8, a8]
  | .b4 a8 => [0x37#8, a8]
  | .skp a8 => [0x38#8, a8]
  | .bnq a8 => [0x39#8, a8]
  | .bnz a8 => [0x3A#8, a8]
  | .bnf a8 => [0x3B#8, a8]
  | .bn1 a8 => [0x3C#8, a8]
  | .bn2 a8 => [0x3D#8, a8]
  | .bn3 a8 => [0x3E#8, a8]
  | .bn4 a8 => [0x3F#8, a8]
  | .lda n => [0x4#4 ++ n]
  | .str n => [0x5#4 ++ n]
  | .irx => [0x60#8]
  | .out p => [0b01100#5 ++ p]
  | .illegal => [0x68#8]
  | .inp p => [0b01101#5 ++ p]
  | .ret => [0x70#8]
  | .dis => [0x71#8]
  | .ldxa => [0x72#8]
  | .stxd => [0x73#8]
  | .adc => [0x74#8]
  | .sdb => [0x75#8]
  | .shrc => [0x76#8]
  | .smb => [0x77#8]
  | .sav => [0x78#8]
  | .mark => [0x79#8]
  | .req => [0x7A#8]
  | .seq => [0x7B#8]
  | .adci imm8 => [0x7C#8, imm8]
  | .sdbi imm8 => [0x7D#8, imm8]
  | .shlc => [0x7E#8]
  | .smbi imm8 => [0x7F#8, imm8]
  | .glo n => [0x8#4 ++ n]
  | .ghi n => [0x9#4 ++ n]
  | .plo n => [0xA#4 ++ n]
  | .phi n => [0xB#4 ++ n]
  | .lbr ahi alo => [0xC0#8, ahi, alo]
  | .lbq ahi alo => [0xC1#8, ahi, alo]
  | .lbz ahi alo => [0xC2#8, ahi, alo]
  | .lbdf ahi alo => [0xC3#8, ahi, alo]
  | .nop => [0xC4#8]
  | .lsnq => [0xC5#8]
  | .lsnz => [0xC6#8]
  | .lsnf => [0xC7#8]
  | .lskp => [0xC8#8]
  | .lbnq ahi alo => [0xC9#8, ahi, alo]
  | .lbnz ahi alo => [0xCA#8, ahi, alo]
  | .lbnf ahi alo => [0xCB#8, ahi, alo]
  | .lsie => [0xCC#8]
  | .lsq => [0xCD#8]
  | .lsz => [0xCE#8]
  | .lsdf => [0xCF#8]
  | .sep n => [0xD#4 ++ n]
  | .sex n => [0xE#4 ++ n]
  | .ldx => [0xF0#8]
  | .or => [0xF1#8]
  | .and => [0xF2#8]
  | .xor => [0xF3#8]
  | .add => [0xF4#8]
  | .sd => [0xF5#8]
  | .shr => [0xF6#8]
  | .sm => [0xF7#8]
  | .ldi imm8 => [0xF8#8, imm8]
  | .ori imm8 => [0xF9#8, imm8]
  | .ani imm8 => [0xFA#8, imm8]
  | .xri imm8 => [0xFB#8, imm8]
  | .adi imm8 => [0xFC#8, imm8]
  | .sdi imm8 => [0xFD#8, imm8]
  | .shl => [0xFE#8]
  | .smi imm8 => [0xFF#8, imm8]

/-- Byte `k` of an instruction laid out as one number, bit 0 the least significant bit of the first byte, with
every bit from `nbits` up zero. -/
def tableByte (nbits w k : Nat) : Byte := BitVec.ofNat 8 ((w % 2 ^ nbits) >>> (8 * k))

/-- What the decoder reads from an instruction numbered as spec/opcode_table.json numbers it. -/
def decodeTableWord (nbits w : Nat) : Option Instr :=
  match decode [tableByte nbits w 0, tableByte nbits w 1, tableByte nbits w 2] with
  | .ok (i, _) => some i
  | .error _ => none

end Sys2Proof
end

