-- ==== Sys2Proof/Config.lean ====
section
/-! DEFINITION. What an implementation or the environment fixes: the spec's OPEN parameters and its draws, as
constants with no body (nothing can be proved of their values), and the type of the tone generator's parameters. -/

namespace Sys2Proof

/-- The launch memory `initialMemory` (R336, D3), by address: OPEN, so a constant with no body (log 1). -/
opaque Config.initialMemory : Nat → Byte

/-- `RNG_INIT` (R50, D24): OPEN, so a constant with no body (log 2). -/
opaque Config.rngInit : BitVec 17

/-- The environment's answer to the `n`-th draw when that draw is a sample of an external flag (R39, D16; log 3). -/
opaque Config.efDraw : Nat → ExtFlag → Bool

/-- The environment's answer to the `n`-th draw when that draw is a read of an input port (R40, D16; log 4). -/
opaque Config.portDraw : Nat → Port → Byte

/-- The unspecified staged byte of a commit write whose tag does not match, at the `n`-th draw (R256, D19; log 5). -/
opaque Config.stagedDraw : Nat → Byte

/-- `toneBinding` (R41, D29): the `SetRegister` calls (selector, data) that the host makes for a history of
`OutPort` events, oldest first. OPEN, so a constant with no body (log 9). -/
opaque Config.toneBinding : List (Port × Byte) → List (Byte × Byte)

/-- The tone generator's parameters (R6): the pulse and ramp functions of types 2, 3, 4 and 6 and the LFSR's two
taps. The operations take them as an argument; the machine takes the spec's defaults (log 10). -/
structure ToneParams where
  pulse2 : Word → Bool
  pulse3 : Word → Bool
  wave4 : Word → Int
  wave6 : Word → Int
  tapA : Fin 17
  tapB : Fin 17

end Sys2Proof
end

