-- ==== Sys2Proof/Machine/State.lean ====
section
/-! DEFINITION. The state of the CORE as plain data (10_state.md R20), the reasons a step can stop, and the state
after reset. -/

namespace Sys2Proof.Machine

open Sys2Proof

/-- The engine's run state (R33). -/
inductive Status where
  | running
  | halted
  | illegalOpcode (op : Byte) (addr : Word)
  deriving DecidableEq, Repr

/-- Memory as the listed cells, addresses strictly rising (`Memory.wf`). What an unlisted cell reads as is
`Memory.unlisted` in Machine/Ops.lean (R61, R336; log 1). -/
abbrev Memory := List Host.Cell

/-- What the environment observes (R43), and what the tone generator reports to it (R251, R282). -/
inductive Event where
  | memRead (addr : Word) (v : Byte)
  | memWrite (addr : Word) (v : Byte)
  | efSample (k : ExtFlag) (v : Bool)
  | inPort (p : Port) (v : Byte)
  | outPort (p : Port) (v : Byte)
  | notifyQ (q : Bool)
  | halt
  | illegalOpcode (op : Byte) (addr : Word)
  | runReturned (overshoot : Int)
  | runStopped (status : Status)
  | sample (left right : Int)
  | clipReport (n : Nat)
  deriving DecidableEq, Repr

/-- One tone channel (R45 to R48). -/
structure Channel where
  count : Word
  delta : Word
  volumeLeft : Byte
  volumeRight : Byte
  waveType : BitVec 3
  deriving DecidableEq, Repr

/-- Which staging write filled the latch (R49). -/
inductive StageKind where
  | deltaLow
  | volLeft
  deriving DecidableEq, Repr

/-- The staging latch with the spec's tag (R49, D19). -/
structure Stage where
  value : Byte
  tag : Option (Chan × StageKind)
  deriving DecidableEq, Repr

/-- The tone generator's state (R20, R44 to R51). -/
structure Tone where
  ch : Vector Channel 32
  stage : Stage
  rng : BitVec 17
  clipCount : Nat
  sampleCount : Nat
  deriving DecidableEq, Repr

/-- What the four external flag inputs answer at one sample (R39). -/
structure EfLevels where
  ef1 : Bool
  ef2 : Bool
  ef3 : Bool
  ef4 : Bool
  deriving DecidableEq, Repr

/-- The environment's inputs (R37), the model's own fields: the answers lined up for the next flag samples and port
reads, first one first, and the number of draws made so far. With no answer lined up a draw is an opaque constant
of Config applied to that number (logs 3, 4, 5, 6). -/
structure Env where
  efIn : List EfLevels
  portIn : List Byte
  draws : Nat
  deriving DecidableEq, Repr

/-- A move of the schedule (R342): the engine's turn, or one operation of the host. -/
inductive Move where
  | engine
  | run (clockBudget : Int)
  | reset
  | load (addr : Word) (v : Byte)
  | mute
  | setRegister (selector data : Byte)
  | produceSample
  | routeTone
  deriving DecidableEq, Repr

/-- Where the machine stands towards `Run` (R56, R116, R121; log 8): no call made yet, so that the instruction step by
itself is the transition; a call of `Run(clockBudget)` in progress; or between the return of one call and the entry of
the next. -/
inductive RunPhase where
  | stepping
  | running (clockBudget : Int)
  | returned
  deriving DecidableEq, Repr

/-- The host's side: its moves to come (the model's own field, log 7), the phase of its `Run` calls (R56, R116, log 8),
and whether a `Reset` has initialised the engine (R55, log 27). -/
structure HostSide where
  schedule : List Move
  phase : RunPhase
  resetDone : Bool
  deriving DecidableEq, Repr

/-- The whole state (R20). `r` is `R[0..15]`; the other engine fields have the spec's names in lower case. -/
structure State where
  r : Vector Word 16
  d : Byte
  df : Bool
  x : Reg
  p : Reg
  q : Bool
  t : Byte
  ie : Bool
  status : Status
  clk : Nat
  mem : Memory
  tone : Tone
  events : List Event
  env : Env
  host : HostSide
  deriving DecidableEq, Repr

/-- Why the machine stops. -/
inductive Fault where
  /-- Raised by an engine turn (Machine/Engine.lean) when `status` is `Halted` and no `Run` call has been made (inside
  one the loop ends the call instead, R117): no step is enabled (R33, R308).
  Safe: the spec's engine does nothing further either (log 19). -/
  | halted
  /-- Raised likewise when `status` is `IllegalOpcode(op, addr)`: the terminal fault of R301, R308. Safe:
  the spec's engine does nothing further either (log 19). -/
  | illegalOpcode (op : Byte) (addr : Word)
  deriving DecidableEq, Repr

/-- Why the model gives a step no meaning. -/
inductive Refusal where
  /-- Raised by an arm of `exec` for an instruction with no meaning yet. Safe. No arm raises it now. -/
  | notModelled (mnemonic : String)
  /-- Raised by an engine turn and by `Run` before the first `Reset` (R55, D37). Safe (log 27). -/
  | runBeforeReset
  /-- Raised by a host move that the spec does not give while `Run` executes: `Run`, `Reset` or a memory write
  (R342). Safe (log 28). -/
  | hostMoveDuringRun
  deriving DecidableEq, Repr

/-- A channel at power-on and after `Mute` (R54). -/
def Channel.zero : Channel :=
  { count := 0, delta := 0, volumeLeft := 0, volumeRight := 0, waveType := 0 }

/-- The tone generator at power-on (R54; `stage.value`: log 33; `rng`: log 2). -/
def Tone.powerOn : Tone :=
  { ch := Vector.replicate 32 Channel.zero, stage := { value := 0, tag := none }, rng := Config.rngInit,
    clipCount := 0, sampleCount := 0 }

/-- The machine right after reset: the engine as `Reset` leaves it (R53, R330), the tone generator at power-on
(R54), no memory cell listed (R336), nothing observed yet; the model's own fields empty (logs 6, 7, 8, 29, 38). -/
def State.reset : State :=
  { r := Vector.replicate 16 0, d := 0, df := false, x := 0, p := 0, q := false, t := 0, ie := false,
    status := .running, clk := 0, mem := [], tone := Tone.powerOn, events := [],
    env := { efIn := [], portIn := [], draws := 0 },
    host := { schedule := [], phase := .stepping, resetDone := true } }

end Sys2Proof.Machine
end

