-- ==== Sys2Proof/Machine/Ops.lean ====
section
/-! DEFINITION. The named operations over registers, memory, ports and the run state, written once; every meaning is
built from them. -/

namespace Sys2Proof.Machine

open Sys2Proof

/-! ### Bytes of a word (R8, R67) -/

/-- `v.lo`, that is `v[7:0]`. -/
def lo (v : Word) : Byte := v.extractLsb' 0 8

/-- `v.hi`, that is `v[15:8]`. -/
def hi (v : Word) : Byte := v.extractLsb' 8 8

/-- `h || l`: the high byte first. -/
def join (h l : Byte) : Word := h ++ l

/-- `a || b` of two 4-bit fields: the packed `(X,P)` byte (R31, R67). -/
def pack (a b : Reg) : Byte := a ++ b

/-- The high nibble of a packed byte. -/
def packHi (v : Byte) : Reg := v.extractLsb' 4 4

/-- The low nibble of a packed byte. -/
def packLo (v : Byte) : Reg := v.extractLsb' 0 4

/-! ### Registers (R8, R21, R23). No register is hardwired; arithmetic is modulo 2^16. -/

/-- `R[n]`. -/
def State.reg (s : State) (n : Reg) : Word := s.r[n.toFin]

/-- `R[n] <- v`. -/
def State.setReg (s : State) (n : Reg) (v : Word) : State := { s with r := s.r.set n.toFin v }

/-- The program counter `R[P]` (R23). -/
def State.pc (s : State) : Word := s.reg s.p

/-- `R[P] <- v`. -/
def State.setPc (s : State) (v : Word) : State := s.setReg s.p v

/-- `D <- v`. -/
def State.setD (s : State) (v : Byte) : State := { s with d := v }

/-- `D` and `DF` of an arithmetic or shift result. -/
def State.setDDF (s : State) (v : Byte) (f : Bool) : State := { s with d := v, df := f }

/-- `X <- n`. -/
def State.setX (s : State) (n : Reg) : State := { s with x := n }

/-- `P <- n`. -/
def State.setP (s : State) (n : Reg) : State := { s with p := n }

/-- `T <- v`. -/
def State.setT (s : State) (v : Byte) : State := { s with t := v }

/-- `IE <- b`. -/
def State.setIE (s : State) (b : Bool) : State := { s with ie := b }

/-- `clk <- n`. -/
def State.setClk (s : State) (n : Nat) : State := { s with clk := n }

/-- An observable event is added to the history, newest first (R43; log 29). -/
def State.emit (s : State) (e : Event) : State := { s with events := e :: s.events }

/-! ### Memory (R61 to R65): 65536 one-byte cells, no fault, no side effect of a read -/

/-- What a cell reads as that no write and no load has listed: its launch content (R71, R336; log 1). -/
def Memory.unlisted (a : Nat) : Byte := Config.initialMemory a

/-- The listed byte at an address. -/
def Memory.lookup : Memory → Nat → Option Byte
  | [], _ => none
  | (k, v) :: m, a => if k = a then some v else Memory.lookup m a

/-- The byte in a cell. -/
def Memory.read (m : Memory) (a : Nat) : Byte := (Memory.lookup m a).getD (Memory.unlisted a)

/-- The cell `a` takes `v`; the list stays in address order. -/
def Memory.write : Memory → Nat → Byte → Memory
  | [], a, v => [(a, v)]
  | (k, w) :: m, a, v =>
    if a < k then (a, v) :: (k, w) :: m
    else if a = k then (a, v) :: m
    else (k, w) :: Memory.write m a v

/-- Every listed address is above `a`. -/
def Memory.above (a : Nat) : Memory → Bool
  | [] => true
  | (k, _) :: m => decide (a < k) && Memory.above a m

/-- The canonical form: addresses strictly rising and inside the 65536 cells. A listed cell is never equal to what
an unlisted one is listed as, which is nothing (log 1). -/
def Memory.wf : Memory → Bool
  | [] => true
  | (k, _) :: m => decide (k < 65536) && Memory.above k m && Memory.wf m

/-- `mem[a]`. -/
def State.byteAt (s : State) (a : Word) : Byte := Memory.read s.mem a.toNat

/-- `mem[a] <- v` with nothing observed: the host's own write, and the store inside `MemWrite`. -/
def State.poke (s : State) (a : Word) (v : Byte) : State := { s with mem := Memory.write s.mem a.toNat v }

/-- `MemRead(a, 1)` as an observed transaction; its value is `byteAt a` (R63, R65). -/
def State.readCell (s : State) (a : Word) : State := s.emit (.memRead a (s.byteAt a))

/-- `MemWrite(a, 1, v)` (R63). -/
def State.writeCell (s : State) (a : Word) (v : Byte) : State := (s.poke a v).emit (.memWrite a v)

/-! ### Fetching (R111) -/

/-- The opcode byte `op` of the next step. -/
def State.opcode (s : State) : Byte := s.byteAt s.pc

/-- `op <- Fetch()`: one read at `R[P]`, then `R[P] <- (R[P] + 1) mod 2^16` (R111, R112). -/
def State.fetchOpcode (s : State) : State := (s.readCell s.pc).setPc (s.pc + 1)

/-- `Fetch()` of an operand byte that the decoder has already placed in the instruction (R96, R111; log 32). -/
def State.fetchOperand (s : State) (v : Byte) : State := (s.emit (.memRead s.pc v)).setPc (s.pc + 1)

/-! ### Environment draws (R39, R40): one transaction each, the value lined up or an opaque draw -/

/-- The level of one flag among the four. -/
def EfLevels.level (e : EfLevels) : ExtFlag → Bool
  | .ef1 => e.ef1
  | .ef2 => e.ef2
  | .ef3 => e.ef3
  | .ef4 => e.ef4

/-- The value `EF(k)` has at the next sample. -/
def Env.efValue (e : Env) (k : ExtFlag) : Bool :=
  match e.efIn with
  | [] => Config.efDraw e.draws k
  | l :: _ => l.level k

/-- The byte `InPort(p)` returns at the next read. -/
def Env.portValue (e : Env) (p : Port) : Byte :=
  match e.portIn with
  | [] => Config.portDraw e.draws p
  | v :: _ => v

/-- The environment after a flag sample. -/
def Env.afterEf (e : Env) : Env := { e with efIn := e.efIn.drop 1, draws := e.draws + 1 }

/-- The environment after a port read. -/
def Env.afterPort (e : Env) : Env := { e with portIn := e.portIn.drop 1, draws := e.draws + 1 }

/-- `EF(k)` as an observed sample; its value is `env.efValue k` (R39). -/
def State.sampleEf (s : State) (k : ExtFlag) : State :=
  { s with env := s.env.afterEf }.emit (.efSample k (s.env.efValue k))

/-- `InPort(p)` as an observed transaction; its value is `env.portValue p` (R40). -/
def State.inPort (s : State) (p : Port) : State :=
  { s with env := s.env.afterPort }.emit (.inPort p (s.env.portValue p))

/-- `OutPort(p, v)` (R41). -/
def State.outPort (s : State) (p : Port) (v : Byte) : State := s.emit (.outPort p v)

/-- `Q <- b; NotifyQ(b)` (R42, R232, R233). -/
def State.latchQ (s : State) (b : Bool) : State := { s with q := b }.emit (.notifyQ b)

/-! ### Stopping (R300 to R306): no state is saved and control goes nowhere -/

/-- `raise Halt` (R302). -/
def State.raiseHalt (s : State) : State := { s with status := .halted }.emit .halt

/-- `raise IllegalOpcode(op, addr)` (R301). -/
def State.raiseIllegal (s : State) (op : Byte) (addr : Word) : State :=
  { s with status := .illegalOpcode op addr }.emit (.illegalOpcode op addr)

/-! ### Cost (R115) -/

/-- `cost(op)`: 24 for the opcodes 0xC0-0xCF, 16 for every other. -/
def cost (op : Byte) : Nat := if op.extractLsb' 4 4 = 0xC#4 then 24 else 16

/-- `clk <- clk + cost(op)`, unless the instruction has stopped the engine (R112, R117). -/
def State.account (s : State) (op : Byte) : State :=
  match s.status with
  | .running => s.setClk (s.clk + cost op)
  | .halted | .illegalOpcode _ _ => s

/-! ### Reset (R330, R331) -/

/-- `Reset()`: all engine registers and flags zero, `status` running; memory, the tone generator and the environment
unchanged, no notification (D31; log 26). -/
def State.resetEngine (s : State) : State :=
  { s with
    r := Vector.replicate 16 0, d := 0, df := false, x := 0, p := 0, q := false, t := 0, ie := false,
    status := .running, host := { s.host with resetDone := true } }

end Sys2Proof.Machine
end

