-- ==== Sys2Proof/Machine/Flags.lean ====
section
/-! DEFINITION. Every computation of `DF`: the two arithmetic functions in a 9-bit intermediate (R170) and the four
shifts (R162 to R165). -/

namespace Sys2Proof.Machine

open Sys2Proof

/-- The new `D` and `DF`. -/
structure DDF where
  d : Byte
  df : Bool
  deriving DecidableEq, Repr

/-- A bit as a 9-bit number. -/
def bit9 (b : Bool) : BitVec 9 := (BitVec.ofBool b).setWidth 9

/-- `AddC(a, b, cin)` (R170): `DF` is bit 8 of the 9-bit sum. -/
def addC (a b : Byte) (cin : Bool) : DDF :=
  let s : BitVec 9 := a.setWidth 9 + b.setWidth 9 + bit9 cin
  { d := s.extractLsb' 0 8, df := s.getLsbD 8 }

/-- `SubB(m, s, bin)` (R170): `DF` is the negation of bit 8 of the 9-bit difference. -/
def subB (m s : Byte) (bin : Bool) : DDF :=
  let r : BitVec 9 := m.setWidth 9 - s.setWidth 9 - bit9 bin
  { d := r.extractLsb' 0 8, df := !r.getLsbD 8 }

/-- SHR (R162). -/
def shiftRight (d : Byte) : DDF := { d := d >>> 1, df := d.getLsbD 0 }

/-- SHRC (R163): the old `DF` enters bit 7. -/
def shiftRightCarry (d : Byte) (df : Bool) : DDF :=
  { d := ((BitVec.ofBool df).setWidth 8 <<< 7) ||| (d >>> 1), df := d.getLsbD 0 }

/-- SHL (R164). -/
def shiftLeft (d : Byte) : DDF := { d := d <<< 1, df := d.getLsbD 7 }

/-- SHLC (R165): the old `DF` enters bit 0. -/
def shiftLeftCarry (d : Byte) (df : Bool) : DDF :=
  { d := (d <<< 1) ||| (BitVec.ofBool df).setWidth 8, df := d.getLsbD 7 }

/-- `D` and `DF` take a result. -/
def State.setResult (s : State) (v : DDF) : State := s.setDDF v.d v.df

end Sys2Proof.Machine
end

