-- ==== Sys2Proof/Machine/Operands.lean ====
section
/-! DEFINITION. The addressing modes (41_memory_reference.md R130): the operand's value, and the state after the
access and its post-modification. -/

namespace Sys2Proof.Machine

open Sys2Proof

/-- `R[n]` as a data address (register indirect). -/
def State.addrN (s : State) (n : Reg) : Word := s.reg n

/-- `R[X]` as a data address (index indirect). -/
def State.addrX (s : State) : Word := s.reg s.x

/-- `R[n] <- (R[n] + 1) mod 2^16`. -/
def State.incReg (s : State) (n : Reg) : State := s.setReg n (s.reg n + 1)

/-- `R[n] <- (R[n] - 1) mod 2^16`. -/
def State.decReg (s : State) (n : Reg) : State := s.setReg n (s.reg n - 1)

/-- The byte operand `MemRead(R[n], 1)`. -/
def State.operandN (s : State) (n : Reg) : Byte := s.byteAt (s.addrN n)

/-- The byte operand `MemRead(R[X], 1)`. -/
def State.operandX (s : State) : Byte := s.byteAt s.addrX

/-- After reading `mem[R[n]]`, `R[n]` unchanged. -/
def State.readN (s : State) (n : Reg) : State := s.readCell (s.addrN n)

/-- After reading `mem[R[X]]`, `R[X]` unchanged. -/
def State.readX (s : State) : State := s.readCell s.addrX

/-- After reading `mem[R[n]]` with post-increment. -/
def State.readNInc (s : State) (n : Reg) : State := (s.readN n).incReg n

/-- After reading `mem[R[X]]` with post-increment. -/
def State.readXInc (s : State) : State := s.readX.incReg s.x

/-- After storing `v` at `mem[R[n]]`, `R[n]` unchanged. -/
def State.writeN (s : State) (n : Reg) (v : Byte) : State := s.writeCell (s.addrN n) v

/-- After storing `v` at `mem[R[X]]`, `R[X]` unchanged. -/
def State.writeX (s : State) (v : Byte) : State := s.writeCell s.addrX v

/-- After storing `v` at `mem[R[n]]` with post-decrement (STXD with `n = X`; the `R[2]` stack of MARK). -/
def State.writeNDec (s : State) (n : Reg) (v : Byte) : State := (s.writeN n v).decReg n

end Sys2Proof.Machine
end

