-- ==== Sys2Proof/Machine/Arithmetic.lean ====
section
/-! DEFINITION. Arithmetic instructions (44_arithmetic.md): the operand roles of R172 over `addC` and `subB`. -/

namespace Sys2Proof.Machine

open Sys2Proof

/-- ADD (R173). -/
def execAdd (s : State) : Host.Outcome State Fault Refusal :=
  .next (s.readX.setResult (addC s.d s.operandX false))

/-- ADC (R174). -/
def execAdc (s : State) : Host.Outcome State Fault Refusal :=
  .next (s.readX.setResult (addC s.d s.operandX s.df))

/-- SD (R175). -/
def execSd (s : State) : Host.Outcome State Fault Refusal :=
  .next (s.readX.setResult (subB s.operandX s.d false))

/-- SDB (R176). -/
def execSdb (s : State) : Host.Outcome State Fault Refusal :=
  .next (s.readX.setResult (subB s.operandX s.d (!s.df)))

/-- SM (R177). -/
def execSm (s : State) : Host.Outcome State Fault Refusal :=
  .next (s.readX.setResult (subB s.d s.operandX false))

/-- SMB (R178). -/
def execSmb (s : State) : Host.Outcome State Fault Refusal :=
  .next (s.readX.setResult (subB s.d s.operandX (!s.df)))

/-- ADI (R179). -/
def execAdi (imm8 : Byte) (s : State) : Host.Outcome State Fault Refusal :=
  .next ((s.fetchOperand imm8).setResult (addC s.d imm8 false))

/-- ADCI (R180). -/
def execAdci (imm8 : Byte) (s : State) : Host.Outcome State Fault Refusal :=
  .next ((s.fetchOperand imm8).setResult (addC s.d imm8 s.df))

/-- SDI (R181; operand order: R96, log 39). -/
def execSdi (imm8 : Byte) (s : State) : Host.Outcome State Fault Refusal :=
  .next ((s.fetchOperand imm8).setResult (subB imm8 s.d false))

/-- SDBI (R182; operand order: R96, log 39). -/
def execSdbi (imm8 : Byte) (s : State) : Host.Outcome State Fault Refusal :=
  .next ((s.fetchOperand imm8).setResult (subB imm8 s.d (!s.df)))

/-- SMI (R183; operand order: R96, log 39). -/
def execSmi (imm8 : Byte) (s : State) : Host.Outcome State Fault Refusal :=
  .next ((s.fetchOperand imm8).setResult (subB s.d imm8 false))

/-- SMBI (R184; operand order: R96, log 39). -/
def execSmbi (imm8 : Byte) (s : State) : Host.Outcome State Fault Refusal :=
  .next ((s.fetchOperand imm8).setResult (subB s.d imm8 (!s.df)))

end Sys2Proof.Machine
end

