-- ==== Sys2Proof/Machine/ControlIo.lean ====
section
/-! DEFINITION. Control, linkage and input/output instructions, and the illegal opcode (47_control_io.md). -/

namespace Sys2Proof.Machine

open Sys2Proof

/-- The pop of RET and DIS (R236, R237): the byte at `R[X]`, the register the old `X` selects incremented (log 16),
then high nibble to `X` and low nibble to `P`. -/
def State.popXP (s : State) : State :=
  (s.readXInc.setX (packHi s.operandX)).setP (packLo s.operandX)

/-- IDL (R231): `status <- Halted`. -/
def execIdl (s : State) : Host.Outcome State Fault Refusal :=
  .next s.raiseHalt

/-- REQ (R232). -/
def execReq (s : State) : Host.Outcome State Fault Refusal :=
  .next (s.latchQ false)

/-- SEQ (R233). -/
def execSeq (s : State) : Host.Outcome State Fault Refusal :=
  .next (s.latchQ true)

/-- SAV (R234). -/
def execSav (s : State) : Host.Outcome State Fault Refusal :=
  .next (s.writeX s.t)

/-- MARK (R235): `T` takes the old `X` and `P`, then the store at `R[2]` and its decrement. -/
def execMark (s : State) : Host.Outcome State Fault Refusal :=
  let v := pack s.x s.p
  .next (((s.setT v).setX s.p).writeNDec 2 v)

/-- RET (R236). -/
def execRet (s : State) : Host.Outcome State Fault Refusal :=
  .next (s.popXP.setIE true)

/-- DIS (R237). -/
def execDis (s : State) : Host.Outcome State Fault Refusal :=
  .next (s.popXP.setIE false)

/-- OUT p (R238): read, port write, increment; no input follows (log 15). -/
def execOut (p : Port) (s : State) : Host.Outcome State Fault Refusal :=
  .next ((s.readX.outPort p s.operandX).incReg s.x)

/-- INP p (R239): one port read, to `D` and to `mem[R[X]]`. -/
def execInp (p : Port) (s : State) : Host.Outcome State Fault Refusal :=
  let v := s.env.portValue p
  .next (((s.inPort p).setD v).writeX v)

/-- 0x68 (R240): `addr` is the address the byte was fetched from, one before `R[P]`. -/
def execIllegal (s : State) : Host.Outcome State Fault Refusal :=
  .next (s.raiseIllegal 0x68 (s.pc - 1))

end Sys2Proof.Machine
end

