-- ==== Sys2Proof/Machine/LogicShift.lean ====
section
/-! DEFINITION. Logic and shift instructions (43_logic_shift.md). The logic instructions leave `DF` alone (R155). -/

namespace Sys2Proof.Machine

open Sys2Proof

/-- OR (R156). -/
def execOr (s : State) : Host.Outcome State Fault Refusal :=
  .next (s.readX.setD (s.d ||| s.operandX))

/-- AND (R157). -/
def execAnd (s : State) : Host.Outcome State Fault Refusal :=
  .next (s.readX.setD (s.d &&& s.operandX))

/-- XOR (R158). -/
def execXor (s : State) : Host.Outcome State Fault Refusal :=
  .next (s.readX.setD (s.d ^^^ s.operandX))

/-- ORI (R159). -/
def execOri (imm8 : Byte) (s : State) : Host.Outcome State Fault Refusal :=
  .next ((s.fetchOperand imm8).setD (s.d ||| imm8))

/-- ANI (R160). -/
def execAni (imm8 : Byte) (s : State) : Host.Outcome State Fault Refusal :=
  .next ((s.fetchOperand imm8).setD (s.d &&& imm8))

/-- XRI (R161). -/
def execXri (imm8 : Byte) (s : State) : Host.Outcome State Fault Refusal :=
  .next ((s.fetchOperand imm8).setD (s.d ^^^ imm8))

/-- SHR (R162). -/
def execShr (s : State) : Host.Outcome State Fault Refusal :=
  .next (s.setResult (shiftRight s.d))

/-- SHRC (R163). -/
def execShrc (s : State) : Host.Outcome State Fault Refusal :=
  .next (s.setResult (shiftRightCarry s.d s.df))

/-- SHL (R164). -/
def execShl (s : State) : Host.Outcome State Fault Refusal :=
  .next (s.setResult (shiftLeft s.d))

/-- SHLC (R165). -/
def execShlc (s : State) : Host.Outcome State Fault Refusal :=
  .next (s.setResult (shiftLeftCarry s.d s.df))

end Sys2Proof.Machine
end

