-- ==== Sys2Proof/Machine/LongBranch.lean ====
section
/-! DEFINITION. Long branches, long skips and the no-operation (46_long_branch_skip.md). Which opcode is which:
log 12. -/

namespace Sys2Proof.Machine

open Sys2Proof

/-- `LongBranch(cond)` (R66, R211): both operand bytes are fetched, taken or not (R22's table row says otherwise of the
reads: log 31), the first is the high byte (log 13). -/
def State.longBranch (s : State) (cond : Bool) (ahi alo : Byte) : State :=
  let s' := (s.fetchOperand ahi).fetchOperand alo
  if cond then s'.setPc (join ahi alo) else s'

/-- `LongSkip(cond)` (R212): the two bytes passed over are not read. -/
def State.longSkip (s : State) (cond : Bool) : State :=
  if cond then s.setPc (s.pc + 2) else s

/-- LBR (R213). -/
def execLbr (ahi alo : Byte) (s : State) : Host.Outcome State Fault Refusal :=
  .next (s.longBranch true ahi alo)

/-- LBQ (R214). -/
def execLbq (ahi alo : Byte) (s : State) : Host.Outcome State Fault Refusal :=
  .next (s.longBranch s.q ahi alo)

/-- LBZ (R215). -/
def execLbz (ahi alo : Byte) (s : State) : Host.Outcome State Fault Refusal :=
  .next (s.longBranch (s.d == 0) ahi alo)

/-- LBDF (R216). -/
def execLbdf (ahi alo : Byte) (s : State) : Host.Outcome State Fault Refusal :=
  .next (s.longBranch s.df ahi alo)

/-- NOP (R217): nothing but the opcode fetch. -/
def execNop (s : State) : Host.Outcome State Fault Refusal :=
  .next s

/-- LSNQ (R218). -/
def execLsnq (s : State) : Host.Outcome State Fault Refusal :=
  .next (s.longSkip (!s.q))

/-- LSNZ (R219). -/
def execLsnz (s : State) : Host.Outcome State Fault Refusal :=
  .next (s.longSkip (s.d != 0))

/-- LSNF (R220). -/
def execLsnf (s : State) : Host.Outcome State Fault Refusal :=
  .next (s.longSkip (!s.df))

/-- LSKP (R221). -/
def execLskp (s : State) : Host.Outcome State Fault Refusal :=
  .next (s.longSkip true)

/-- LBNQ (R222). -/
def execLbnq (ahi alo : Byte) (s : State) : Host.Outcome State Fault Refusal :=
  .next (s.longBranch (!s.q) ahi alo)

/-- LBNZ (R223). -/
def execLbnz (ahi alo : Byte) (s : State) : Host.Outcome State Fault Refusal :=
  .next (s.longBranch (s.d != 0) ahi alo)

/-- LBNF (R224). -/
def execLbnf (ahi alo : Byte) (s : State) : Host.Outcome State Fault Refusal :=
  .next (s.longBranch (!s.df) ahi alo)

/-- LSIE (R225). -/
def execLsie (s : State) : Host.Outcome State Fault Refusal :=
  .next (s.longSkip s.ie)

/-- LSQ (R226). -/
def execLsq (s : State) : Host.Outcome State Fault Refusal :=
  .next (s.longSkip s.q)

/-- LSZ (R227). -/
def execLsz (s : State) : Host.Outcome State Fault Refusal :=
  .next (s.longSkip (s.d == 0))

/-- LSDF (R228). -/
def execLsdf (s : State) : Host.Outcome State Fault Refusal :=
  .next (s.longSkip s.df)

end Sys2Proof.Machine
end

