-- ==== Sys2Proof/Machine/MemoryRef.lean ====
section
/-! DEFINITION. Load and store instructions (41_memory_reference.md). Each meaning runs on the state after the
opcode fetch (R112). -/

namespace Sys2Proof.Machine

open Sys2Proof

/-- LDN n (R131). -/
def execLdn (n : Reg) (s : State) : Host.Outcome State Fault Refusal :=
  .next ((s.readN n).setD (s.operandN n))

/-- LDA n (R132): the register is incremented after the read. -/
def execLda (n : Reg) (s : State) : Host.Outcome State Fault Refusal :=
  .next ((s.readNInc n).setD (s.operandN n))

/-- LDX (R133). -/
def execLdx (s : State) : Host.Outcome State Fault Refusal :=
  .next (s.readX.setD s.operandX)

/-- LDXA (R134). -/
def execLdxa (s : State) : Host.Outcome State Fault Refusal :=
  .next (s.readXInc.setD s.operandX)

/-- LDI (R135). -/
def execLdi (imm8 : Byte) (s : State) : Host.Outcome State Fault Refusal :=
  .next ((s.fetchOperand imm8).setD imm8)

/-- STR n (R136). -/
def execStr (n : Reg) (s : State) : Host.Outcome State Fault Refusal :=
  .next (s.writeN n s.d)

/-- STXD (R137): the register is decremented after the store. -/
def execStxd (s : State) : Host.Outcome State Fault Refusal :=
  .next (s.writeNDec s.x s.d)

end Sys2Proof.Machine
end

