-- ==== Sys2Proof/Machine/RegisterOps.lean ====
section
/-! DEFINITION. Register operations (42_register_ops.md): no memory access, no flag (R140). `n = P` is not special
(R149). -/

namespace Sys2Proof.Machine

open Sys2Proof

/-- INC n (R141). -/
def execInc (n : Reg) (s : State) : Host.Outcome State Fault Refusal :=
  .next (s.incReg n)

/-- DEC n (R142). -/
def execDec (n : Reg) (s : State) : Host.Outcome State Fault Refusal :=
  .next (s.decReg n)

/-- IRX (R143). -/
def execIrx (s : State) : Host.Outcome State Fault Refusal :=
  .next (s.incReg s.x)

/-- GLO n (R144). -/
def execGlo (n : Reg) (s : State) : Host.Outcome State Fault Refusal :=
  .next (s.setD (lo (s.reg n)))

/-- GHI n (R145). -/
def execGhi (n : Reg) (s : State) : Host.Outcome State Fault Refusal :=
  .next (s.setD (hi (s.reg n)))

/-- PLO n (R146). -/
def execPlo (n : Reg) (s : State) : Host.Outcome State Fault Refusal :=
  .next (s.setReg n (join (hi (s.reg n)) s.d))

/-- PHI n (R147). -/
def execPhi (n : Reg) (s : State) : Host.Outcome State Fault Refusal :=
  .next (s.setReg n (join s.d (lo (s.reg n))))

/-- SEP n (R148). -/
def execSep (n : Reg) (s : State) : Host.Outcome State Fault Refusal :=
  .next (s.setP n)

/-- SEX n (R150). -/
def execSex (n : Reg) (s : State) : Host.Outcome State Fault Refusal :=
  .next (s.setX n)

end Sys2Proof.Machine
end

