-- ==== Sys2Proof/Machine/ShortBranch.lean ====
section
/-! DEFINITION. Short branches and the short skip (45_short_branch.md). Which opcode tests which condition: log 11. -/

namespace Sys2Proof.Machine

open Sys2Proof

/-- The target of a short branch whose operand byte stands at `a` (R192): the page of that byte (log 14). -/
def shortTarget (a : Word) (a8 : Byte) : Word := join (hi a) a8

/-- `ShortBranch(cond)` (R191): taken, the operand byte is read and replaces the low byte of `R[P]`; not taken, it is
passed over unread. -/
def State.shortBranch (s : State) (cond : Bool) (a8 : Byte) : State :=
  if cond then (s.emit (.memRead s.pc a8)).setPc (shortTarget s.pc a8) else s.setPc (s.pc + 1)

/-- BR (R193). -/
def execBr (a8 : Byte) (s : State) : Host.Outcome State Fault Refusal :=
  .next (s.shortBranch true a8)

/-- BQ (R194). -/
def execBq (a8 : Byte) (s : State) : Host.Outcome State Fault Refusal :=
  .next (s.shortBranch s.q a8)

/-- BZ (R195). -/
def execBz (a8 : Byte) (s : State) : Host.Outcome State Fault Refusal :=
  .next (s.shortBranch (s.d == 0) a8)

/-- BDF (R196). -/
def execBdf (a8 : Byte) (s : State) : Host.Outcome State Fault Refusal :=
  .next (s.shortBranch s.df a8)

/-- B1 (R197): one sample of `EF(1)`. -/
def execB1 (a8 : Byte) (s : State) : Host.Outcome State Fault Refusal :=
  .next ((s.sampleEf .ef1).shortBranch (s.env.efValue .ef1) a8)

/-- B2 (R198): one sample of `EF(2)`. -/
def execB2 (a8 : Byte) (s : State) : Host.Outcome State Fault Refusal :=
  .next ((s.sampleEf .ef2).shortBranch (s.env.efValue .ef2) a8)

/-- B3 (R199): one sample of `EF(3)`. -/
def execB3 (a8 : Byte) (s : State) : Host.Outcome State Fault Refusal :=
  .next ((s.sampleEf .ef3).shortBranch (s.env.efValue .ef3) a8)

/-- B4 (R200): one sample of `EF(4)`. -/
def execB4 (a8 : Byte) (s : State) : Host.Outcome State Fault Refusal :=
  .next ((s.sampleEf .ef4).shortBranch (s.env.efValue .ef4) a8)

/-- SKP (R201). The operand byte is passed over, not read. -/
def execSkp (a8 : Byte) (s : State) : Host.Outcome State Fault Refusal :=
  .next (s.shortBranch false a8)

/-- BNQ (R202). -/
def execBnq (a8 : Byte) (s : State) : Host.Outcome State Fault Refusal :=
  .next (s.shortBranch (!s.q) a8)

/-- BNZ (R203). -/
def execBnz (a8 : Byte) (s : State) : Host.Outcome State Fault Refusal :=
  .next (s.shortBranch (s.d != 0) a8)

/-- BNF (R204). -/
def execBnf (a8 : Byte) (s : State) : Host.Outcome State Fault Refusal :=
  .next (s.shortBranch (!s.df) a8)

/-- BN1 (R205): one sample of `EF(1)`. -/
def execBn1 (a8 : Byte) (s : State) : Host.Outcome State Fault Refusal :=
  .next ((s.sampleEf .ef1).shortBranch (!s.env.efValue .ef1) a8)

/-- BN2 (R206): one sample of `EF(2)`. -/
def execBn2 (a8 : Byte) (s : State) : Host.Outcome State Fault Refusal :=
  .next ((s.sampleEf .ef2).shortBranch (!s.env.efValue .ef2) a8)

/-- BN3 (R207): one sample of `EF(3)`. -/
def execBn3 (a8 : Byte) (s : State) : Host.Outcome State Fault Refusal :=
  .next ((s.sampleEf .ef3).shortBranch (!s.env.efValue .ef3) a8)

/-- BN4 (R208): one sample of `EF(4)`. -/
def execBn4 (a8 : Byte) (s : State) : Host.Outcome State Fault Refusal :=
  .next ((s.sampleEf .ef4).shortBranch (!s.env.efValue .ef4) a8)

end Sys2Proof.Machine
end

