-- ==== Sys2Proof/Machine/Dispatch.lean ====
section
/-! DEFINITION. One arm per constructor of Instr, each one direct call of its meaning (R113). -/

namespace Sys2Proof.Machine

open Sys2Proof

def exec (i : Instr) (s : State) : Host.Outcome State Fault Refusal :=
  match i with
  | .idl => Sys2Proof.Machine.execIdl s
  | .ldn n => Sys2Proof.Machine.execLdn n s
  | .inc n => Sys2Proof.Machine.execInc n s
  | .dec n => Sys2Proof.Machine.execDec n s
  | .br a8 => Sys2Proof.Machine.execBr a8 s
  | .bq a8 => Sys2Proof.Machine.execBq a8 s
  | .bz a8 => Sys2Proof.Machine.execBz a8 s
  | .bdf a8 => Sys2Proof.Machine.execBdf a8 s
  | .b1 a8 => Sys2Proof.Machine.execB1 a8 s
  | .b2 a8 => Sys2Proof.Machine.execB2 a8 s
  | .b3 a8 => Sys2Proof.Machine.execB3 a8 s
  | .b4 a8 => Sys2Proof.Machine.execB4 a8 s
  | .skp a8 => Sys2Proof.Machine.execSkp a8 s
  | .bnq a8 => Sys2Proof.Machine.execBnq a8 s
  | .bnz a8 => Sys2Proof.Machine.execBnz a8 s
  | .bnf a8 => Sys2Proof.Machine.execBnf a8 s
  | .bn1 a8 => Sys2Proof.Machine.execBn1 a8 s
  | .bn2 a8 => Sys2Proof.Machine.execBn2 a8 s
  | .bn3 a8 => Sys2Proof.Machine.execBn3 a8 s
  | .bn4 a8 => Sys2Proof.Machine.execBn4 a8 s
  | .lda n => Sys2Proof.Machine.execLda n s
  | .str n => Sys2Proof.Machine.execStr n s
  | .irx => Sys2Proof.Machine.execIrx s
  | .out p => Sys2Proof.Machine.execOut p s
  | .illegal => Sys2Proof.Machine.execIllegal s
  | .inp p => Sys2Proof.Machine.execInp p s
  | .ret => Sys2Proof.Machine.execRet s
  | .dis => Sys2Proof.Machine.execDis s
  | .ldxa => Sys2Proof.Machine.execLdxa s
  | .stxd => Sys2Proof.Machine.execStxd s
  | .adc => Sys2Proof.Machine.execAdc s
  | .sdb => Sys2Proof.Machine.execSdb s
  | .shrc => Sys2Proof.Machine.execShrc s
  | .smb => Sys2Proof.Machine.execSmb s
  | .sav => Sys2Proof.Machine.execSav s
  | .mark => Sys2Proof.Machine.execMark s
  | .req => Sys2Proof.Machine.execReq s
  | .seq => Sys2Proof.Machine.execSeq s
  | .adci imm8 => Sys2Proof.Machine.execAdci imm8 s
  | .sdbi imm8 => Sys2Proof.Machine.execSdbi imm8 s
  | .shlc => Sys2Proof.Machine.execShlc s
  | .smbi imm8 => Sys2Proof.Machine.execSmbi imm8 s
  | .glo n => Sys2Proof.Machine.execGlo n s
  | .ghi n => Sys2Proof.Machine.execGhi n s
  | .plo n => Sys2Proof.Machine.execPlo n s
  | .phi n => Sys2Proof.Machine.execPhi n s
  | .lbr ahi alo => Sys2Proof.Machine.execLbr ahi alo s
  | .lbq ahi alo => Sys2Proof.Machine.execLbq ahi alo s
  | .lbz ahi alo => Sys2Proof.Machine.execLbz ahi alo s
  | .lbdf ahi alo => Sys2Proof.Machine.execLbdf ahi alo s
  | .nop => Sys2Proof.Machine.execNop s
  | .lsnq => Sys2Proof.Machine.execLsnq s
  | .lsnz => Sys2Proof.Machine.execLsnz s
  | .lsnf => Sys2Proof.Machine.execLsnf s
  | .lskp => Sys2Proof.Machine.execLskp s
  | .lbnq ahi alo => Sys2Proof.Machine.execLbnq ahi alo s
  | .lbnz ahi alo => Sys2Proof.Machine.execLbnz ahi alo s
  | .lbnf ahi alo => Sys2Proof.Machine.execLbnf ahi alo s
  | .lsie => Sys2Proof.Machine.execLsie s
  | .lsq => Sys2Proof.Machine.execLsq s
  | .lsz => Sys2Proof.Machine.execLsz s
  | .lsdf => Sys2Proof.Machine.execLsdf s
  | .sep n => Sys2Proof.Machine.execSep n s
  | .sex n => Sys2Proof.Machine.execSex n s
  | .ldx => Sys2Proof.Machine.execLdx s
  | .or => Sys2Proof.Machine.execOr s
  | .and => Sys2Proof.Machine.execAnd s
  | .xor => Sys2Proof.Machine.execXor s
  | .add => Sys2Proof.Machine.execAdd s
  | .sd => Sys2Proof.Machine.execSd s
  | .shr => Sys2Proof.Machine.execShr s
  | .sm => Sys2Proof.Machine.execSm s
  | .ldi imm8 => Sys2Proof.Machine.execLdi imm8 s
  | .ori imm8 => Sys2Proof.Machine.execOri imm8 s
  | .ani imm8 => Sys2Proof.Machine.execAni imm8 s
  | .xri imm8 => Sys2Proof.Machine.execXri imm8 s
  | .adi imm8 => Sys2Proof.Machine.execAdi imm8 s
  | .sdi imm8 => Sys2Proof.Machine.execSdi imm8 s
  | .shl => Sys2Proof.Machine.execShl s
  | .smi imm8 => Sys2Proof.Machine.execSmi imm8 s

end Sys2Proof.Machine
end

