-- ==== Sys2Proof/Machine/Waveform.lean ====
section
/-! DEFINITION. The eight waveforms and the noise step of the tone generator (48_tone_generator.md R267 to R277), over
the parameters of `ToneParams`, and the spec's default parameters. -/

namespace Sys2Proof.Machine

open Sys2Proof

/-- The two levels of the pulse types and of noise (R6 `PULSE_AMP`, D21). -/
def pulseLevel (b : Bool) : Int := if b then 0x2000 else -0x2000

/-- Default of type 2: `count[15:13] = 0b111` (R269, D21; log 10). -/
def pulse2Default (count : Word) : Bool := count.extractLsb' 13 3 == 0b111#3

/-- Default of type 3: `count[15:14] = 0b11` (R270, D21; log 10). -/
def pulse3Default (count : Word) : Bool := count.extractLsb' 14 2 == 0b11#2

/-- The folded value `f` of R271. -/
def foldCount (count : Word) : Int :=
  let f : Word := (count <<< 1) &&& 0x7FFF#16
  if f.getLsbD 14 then 0x7FFF - f.toNat else f.toNat

/-- Default of type 4 (R271, D22; log 10). -/
def wave4Default (count : Word) : Int := if count.getLsbD 15 then -foldCount count else foldCount count

/-- Default of type 6 (R273, D22; log 10). -/
def wave6Default (count : Word) : Int := if count.getLsbD 15 then foldCount count else -foldCount count

/-- The spec's default parameters (R6; log 10). -/
def ToneParams.default : ToneParams :=
  { pulse2 := pulse2Default, pulse3 := pulse3Default, wave4 := wave4Default, wave6 := wave6Default,
    tapA := 1, tapB := 2 }

/-- `Wave(type, count)` (R267 to R274). The division by 2 is the floor, which is the arithmetic shift (R7; log 25). -/
def wave (P : ToneParams) (type : BitVec 3) (count : Word) : Int :=
  match type.toNat with
  | 0 => pulseLevel (count.getLsbD 15)
  | 1 => pulseLevel (count.extractLsb' 14 2 == 0b11#2)
  | 2 => pulseLevel (P.pulse2 count)
  | 3 => pulseLevel (P.pulse3 count)
  | 4 => P.wave4 count
  | 5 => (0x7FFF - (count.toNat : Int)) / 2
  | 6 => P.wave6 count
  | _ => ((count.toNat : Int) - 0x7FFF) / 2

/-- The shared LFSR after one advance (R276): the feedback of the two taps enters bit 16. -/
def noiseAdvance (P : ToneParams) (rng : BitVec 17) : BitVec 17 :=
  (rng >>> 1) ||| ((BitVec.ofBool (rng.getLsbD P.tapA ^^ rng.getLsbD P.tapB)).setWidth 17 <<< 16)

/-- The noise output of a new LFSR value: its bit 0 (R276). -/
def noiseLevel (rng : BitVec 17) : Int := pulseLevel (rng.getLsbD 0)

end Sys2Proof.Machine
end

