-- ==== Sys2Proof/Machine/Tone.lean ====
section
/-! DEFINITION. The three operations of the tone generator (48_tone_generator.md R253 to R282), functions of its own
state: none reads the engine, memory or `clk` (R284). -/

namespace Sys2Proof.Machine

open Sys2Proof

/-- A function on every channel. -/
def mapChannels (f : Channel → Channel) (v : Vector Channel 32) : Vector Channel 32 :=
  ⟨⟨v.toList.map f⟩, by simp⟩

/-- `ch[c]`. -/
def Tone.chan (g : Tone) (c : Chan) : Channel := g.ch[c.toFin]

/-- `ch[c] <- v`. -/
def Tone.setChan (g : Tone) (c : Chan) (v : Channel) : Tone := { g with ch := g.ch.set c.toFin v }

/-- A silent channel: both volumes 0 (R11, R264). -/
def Channel.silent (c : Channel) : Bool := c.volumeLeft == 0 && c.volumeRight == 0

/-- Noise mode: `delta[15:8] = 0xFF` (R265, D33). -/
def Channel.noise (c : Channel) : Bool := c.delta.extractLsb' 8 8 == 0xFF#8

/-! ### Mute (R253) -/

/-- `Mute()`: every channel field zero; `stage`, `rng` and the counters unchanged (D27; log 23). -/
def Tone.mute (g : Tone) : Tone := { g with ch := Vector.replicate 32 Channel.zero }

/-! ### SetRegister (R254 to R262) -/

/-- `selector[7:3]`, the channel. -/
def selectorChan (selector : Byte) : Chan := selector.extractLsb' 3 5

/-- `selector[2:0]`, the register number. -/
def selectorReg (selector : Byte) : BitVec 3 := selector.extractLsb' 0 3

/-- `Staged(c, kind)` (R256): the latched byte when the tag matches, else the draw. -/
def Tone.staged (g : Tone) (c : Chan) (k : StageKind) (draw : Byte) : Byte :=
  if g.stage.tag = some (c, k) then g.stage.value else draw

/-- The zero-check of a volume-right commit (R260). -/
def Channel.zeroCheck (c : Channel) : Channel := if c.silent then { c with count := 0 } else c

/-- `SetRegister(selector, data)`; `draw` is the unspecified byte a mismatched commit takes (R254, R255, R256; register
numbers: log 22). -/
def Tone.setRegister (g : Tone) (draw selector data : Byte) : Tone :=
  let c := selectorChan selector
  match (selectorReg selector).toNat with
  | 0 => { g with stage := { value := data, tag := some (c, .deltaLow) } }
  | 1 => g.setChan c { g.chan c with delta := data ++ g.staged c .deltaLow draw }
  | 2 => { g with stage := { value := data, tag := some (c, .volLeft) } }
  | 3 =>
    g.setChan c
      (Channel.zeroCheck { g.chan c with volumeLeft := g.staged c .volLeft draw, volumeRight := data })
  | 4 => g.setChan c { g.chan c with waveType := data.extractLsb' 0 3 }
  | _ => g

/-! ### ProduceSample (R263 to R282) -/

/-- The phase advance of one channel: an active tonal channel adds `delta` (R264, R265, R266). -/
def Channel.advance (c : Channel) : Channel :=
  if c.silent || c.noise then c else { c with count := c.count + c.delta }

/-- The shared LFSR and the two running sums (R263, R276, R278). -/
structure Mix where
  rng : BitVec 17
  left : Int
  right : Int
  deriving DecidableEq, Repr

/-- The sums take `t * volumeLeft` and `t * volumeRight`: signed times unsigned, exact (R278, D20, D26). -/
def Mix.add (m : Mix) (c : Channel) (t : Int) : Mix :=
  { m with left := m.left + t * c.volumeLeft.toNat, right := m.right + t * c.volumeRight.toNat }

/-- One channel's contribution, its phase already advanced (R263). -/
def Mix.channel (P : ToneParams) (m : Mix) (c : Channel) : Mix :=
  if c.silent then m
  else if c.noise then
    let rng := noiseAdvance P m.rng
    Mix.add { m with rng := rng } c (noiseLevel rng)
  else Mix.add m c (wave P c.waveType c.count)

/-- The sums over all channels, in ascending order (R263, D25). -/
def Tone.mix (P : ToneParams) (g : Tone) : Mix :=
  (mapChannels Channel.advance g.ch).toList.foldl (Mix.channel P) { rng := g.rng, left := 0, right := 0 }

/-- The attenuation `sum >> 9`, arithmetic, so the floor (R279, D26). -/
def attenuate (sum : Int) : Int := sum / 512

/-- The value `Clamp(v)` returns (R280). -/
def clampSample (v : Int) : Int := if v > 32767 then 32767 else if v < -32768 then -32768 else v

/-- What `Clamp(v)` adds to `clipCount` (R280). -/
def clips (v : Int) : Nat := if v > 32767 ∨ v < -32768 then 1 else 0

/-- What one `ProduceSample` gives: the sample pair, the clip report if one is made, and the new state. -/
structure Sampled where
  left : Int
  right : Int
  report : Option Nat
  tone : Tone
  deriving DecidableEq, Repr

/-- `ClipReport` at the 48000th sample when any value was clamped (R281, R282). -/
def Tone.tickReport (g : Tone) : Option Nat :=
  if g.sampleCount + 1 = 48000 ∧ g.clipCount ≠ 0 then some g.clipCount else none

/-- `Tick()` (R281): the sample count wraps at 48000 whether or not a report is made (D27; log 23). -/
def Tone.tick (g : Tone) : Tone :=
  if g.sampleCount + 1 = 48000 then { g with sampleCount := 0, clipCount := 0 }
  else { g with sampleCount := g.sampleCount + 1 }

/-- The state after the mix and the two clamps of one sample, before `Tick` (R263, R280). -/
def Tone.mixed (P : ToneParams) (g : Tone) : Tone :=
  { g with
    ch := mapChannels Channel.advance g.ch
    rng := (g.mix P).rng
    clipCount := g.clipCount + clips (attenuate (g.mix P).left) + clips (attenuate (g.mix P).right) }

/-- `ProduceSample()` (R263). -/
def Tone.produceSample (P : ToneParams) (g : Tone) : Sampled :=
  { left := clampSample (attenuate (g.mix P).left)
    right := clampSample (attenuate (g.mix P).right)
    report := (g.mixed P).tickReport
    tone := (g.mixed P).tick }

end Sys2Proof.Machine
end

