-- ==== Sys2Proof/Machine/Engine.lean ====
section
/-! DEFINITION. The instruction step and `Run` (40_engine.md R112, R116), the host's moves (70_reset_and_hazards.md R342)
and the turn that the step function takes. -/

namespace Sys2Proof.Machine

open Sys2Proof

/-- The instruction at `R[P]`: its bytes stand at `R[P]`, `R[P] + 1` and `R[P] + 2` mod 2^16 (R90, R111; log 32). -/
def State.decodeAtPc (s : State) : Instr :=
  decodeBytes s.opcode (s.byteAt (s.pc + 1)) (s.byteAt (s.pc + 2))

/-- The cost of the executed opcode is added to the state of a completed instruction (R112). -/
def accountOutcome (op : Byte) : Host.Outcome State Fault Refusal → Host.Outcome State Fault Refusal
  | .next s => .next (s.account op)
  | .fault r => .fault r
  | .refused r => .refused r

/-- `Step()` (R112) when `status` is `Running`: fetch the opcode, execute its instruction, account its cost. No step is
enabled otherwise (R33, R308; log 19), and none before the first `Reset` (R55; log 27). -/
def engineStep (s : State) : Host.Outcome State Fault Refusal :=
  if s.host.resetDone then
    match s.status with
    | .running => accountOutcome s.opcode (exec s.decodeAtPc s.fetchOpcode)
    | .halted => .fault .halted
    | .illegalOpcode op addr => .fault (.illegalOpcode op addr)
  else .refused .runBeforeReset

/-- The loop test of `Run` (R116): the call goes on while `clk < clockBudget` and `status = Running`. -/
def State.runGoesOn (s : State) (clockBudget : Int) : Bool :=
  decide (s.status = .running) && decide ((s.clk : Int) < clockBudget)

/-- The return of `Run`: the overshoot, or the stop when the engine is not running (R116, R117). -/
def State.runEnd (s : State) (clockBudget : Int) : Event :=
  match s.status with
  | .running => .runReturned ((s.clk : Int) - clockBudget)
  | .halted => .runStopped .halted
  | .illegalOpcode op addr => .runStopped (.illegalOpcode op addr)

/-- The phase of the host's `Run` calls is `ph` from here on. -/
def State.setPhase (s : State) (ph : RunPhase) : State := { s with host := { s.host with phase := ph } }

/-- `Run` returns: its end is observed and the call is over (R43, R56, R116). -/
def State.returnFromRun (s : State) (clockBudget : Int) : State :=
  (s.setPhase .returned).emit (s.runEnd clockBudget)

/-- The engine's turn. Before the first `Run` call it is the instruction step by itself (R121). Inside a call it is one
pass of the loop of R116: an instruction step, or the return when the loop ends. Between the return of one call and the
entry of the next nothing changes (R56; log 8). -/
def engineTurn (s : State) : Host.Outcome State Fault Refusal :=
  match s.host.phase with
  | .stepping => engineStep s
  | .running b => if s.runGoesOn b then engineStep s else .next (s.returnFromRun b)
  | .returned => .next s

/-- `Run(clockBudget)` is entered: `clk <- 0` (R116). Refused before the first `Reset` (R55). -/
def enterRun (clockBudget : Int) (s : State) : Host.Outcome State Fault Refusal :=
  if s.host.resetDone then .next ((s.setClk 0).setPhase (.running clockBudget))
  else .refused .runBeforeReset

/-- A host move that the spec gives only between `Run` calls (R342; log 28). -/
def betweenRuns (s : State) (after : Host.Outcome State Fault Refusal) : Host.Outcome State Fault Refusal :=
  match s.host.phase with
  | .stepping | .returned => after
  | .running _ => .refused .hostMoveDuringRun

/-- `Mute()` (R253). -/
def State.mute (s : State) : State := { s with tone := s.tone.mute }

/-- `SetRegister(selector, data)` (R254); the unspecified byte is the next draw (log 5). -/
def State.setRegister (s : State) (selector data : Byte) : State :=
  { s with
    tone := s.tone.setRegister (Config.stagedDraw s.env.draws) selector data
    env := { s.env with draws := s.env.draws + 1 } }

/-- `ProduceSample()` (R263) with the default parameters: the clip report, if any, and then the returned pair are
observed (R43, R281, R282). -/
def State.produceSample (s : State) : State :=
  let a := s.tone.produceSample ToneParams.default
  match a.report with
  | none => { s with tone := a.tone }.emit (.sample a.left a.right)
  | some n => ({ s with tone := a.tone }.emit (.clipReport n)).emit (.sample a.left a.right)

/-- The `OutPort` events of a history that stands newest first, oldest first. -/
def outHistory (events : List Event) : List (Port × Byte) :=
  events.reverse.filterMap fun
    | .outPort p v => some (p, v)
    | _ => none

/-- The host routes: the `SetRegister` calls that `toneBinding` makes of the history so far become its next moves
(R41, R342, D29; log 9). -/
def State.routeTone (s : State) : State :=
  { s with
    host := { s.host with
      schedule :=
        (Config.toneBinding (outHistory s.events)).map (fun c => Move.setRegister c.1 c.2) ++ s.host.schedule } }

/-- One move, already taken off the schedule (R342). -/
def move (m : Move) (s : State) : Host.Outcome State Fault Refusal :=
  match m with
  | .engine => engineTurn s
  | .run b => betweenRuns s (enterRun b s)
  | .reset => betweenRuns s (.next s.resetEngine)
  | .load a v => betweenRuns s (.next (s.poke a v))
  | .mute => .next s.mute
  | .setRegister selector data => .next (s.setRegister selector data)
  | .produceSample => .next s.produceSample
  | .routeTone => .next s.routeTone

/-- The next transition of the CORE: the schedule's first move, or the engine's turn when nothing is scheduled (R313,
R342; log 7). -/
def turn (s : State) : Host.Outcome State Fault Refusal :=
  match s.host.schedule with
  | [] => engineTurn s
  | m :: ms => move m { s with host := { s.host with schedule := ms } }

/-! ### `Run` as one operation (R116 to R120), with no other agent's move inside the call -/

/-- What a `Run` call gives back, and the state it leaves: the overshoot, the stop, or the refusal of R55. -/
inductive RunResult where
  | returned (overshoot : Int) (s : State)
  | stopped (status : Status) (s : State)
  | refused (r : Refusal)
  deriving DecidableEq, Repr

/-- The end of the loop of R116; the call is over. -/
def runDone (clockBudget : Int) (s : State) : RunResult :=
  match s.status with
  | .running => .returned ((s.clk : Int) - clockBudget) (s.setPhase .returned)
  | .halted => .stopped .halted (s.setPhase .returned)
  | .illegalOpcode op addr => .stopped (.illegalOpcode op addr) (s.setPhase .returned)

/-- The loop of R116 with at most `k` passes. -/
def runLoop (clockBudget : Int) : Nat → State → RunResult
  | 0, s => runDone clockBudget s
  | k + 1, s =>
    if s.runGoesOn clockBudget then
      match engineStep s with
      | .next s' => runLoop clockBudget k s'
      | .fault _ => runDone clockBudget s
      | .refused r => .refused r
    else runDone clockBudget s

/-- `Run(clockBudget)` (R116). Each pass costs at least one unit or stops the engine, so `clockBudget` passes are
enough. -/
def runCall (clockBudget : Int) (s : State) : RunResult :=
  if s.host.resetDone then runLoop clockBudget clockBudget.toNat (s.setClk 0)
  else .refused .runBeforeReset

end Sys2Proof.Machine
end

