-- ==== Sys2Proof/Machine/Step.lean ====
section
/-! DEFINITION. One step of the machine, and a state in which the next step runs a given instruction. -/

namespace Sys2Proof.Machine

open Sys2Proof

/-- One transition of the CORE (`turn`, Machine/Engine.lean). -/
def step (s : State) : Host.Outcome State Fault Refusal := turn s

/-- `s` with an instruction's three bytes stored at `R[P]` and the engine free to take its turn: nothing scheduled, no
`Run` call made yet, `status` running, `Reset` done. It stands for the host's load of a program (log 30). -/
def State.withFetchWord (s : State) (nbits w : Nat) : State :=
  let s' : State :=
    { s with status := .running, host := { schedule := [], phase := .stepping, resetDone := true } }
  ((s'.poke s'.pc (tableByte nbits w 0)).poke (s'.pc + 1) (tableByte nbits w 1)).poke (s'.pc + 2)
    (tableByte nbits w 2)

end Sys2Proof.Machine
end

