-- ==== Sys2Proof/Safety.lean ====
section
/-! DEFINITION. The terms in which statements are made: frames, when the engine may take a step, the encoding and cost
of an instruction, and the invariant of the machine. -/

namespace Sys2Proof.Machine

open Sys2Proof

/-- The parts of the state that a frame speaks of, besides the general registers, memory and the event history. -/
inductive Part where
  | d
  | df
  | x
  | p
  | q
  | t
  | ie
  | status
  | clk
  | tone
  | env
  | host
  deriving DecidableEq, Repr

/-- The part has the same value in both states. -/
def Part.same (s u : State) : Part → Prop
  | .d => u.d = s.d
  | .df => u.df = s.df
  | .x => u.x = s.x
  | .p => u.p = s.p
  | .q => u.q = s.q
  | .t => u.t = s.t
  | .ie => u.ie = s.ie
  | .status => u.status = s.status
  | .clk => u.clk = s.clk
  | .tone => u.tone = s.tone
  | .env => u.env = s.env
  | .host => u.host = s.host

/-- Every part is unchanged from `s` to `u` but the listed ones. -/
def KeptBut (changed : List Part) (s u : State) : Prop := ∀ f, f ∉ changed → f.same s u

/-- Every general register is unchanged but the listed ones. -/
def RegsKeptBut (changed : List Reg) (s u : State) : Prop := ∀ k, k ∉ changed → u.reg k = s.reg k

/-- Every byte of memory is unchanged. -/
def MemKept (s u : State) : Prop := ∀ a : Word, u.byteAt a = s.byteAt a

/-- Every byte of memory is unchanged but the one at `at'`. -/
def MemKeptBut (at' : Word) (s u : State) : Prop := ∀ a : Word, a ≠ at' → u.byteAt a = s.byteAt a

/-- The Encoding and Cost of an instruction rule (R9): its bytes, and the clock units of its opcode byte. -/
def Row (i : Instr) (bytes : List Byte) (units : Nat) : Prop :=
  encode i = bytes ∧ cost (bytes.headD 0) = units

/-- The next transition is an instruction step: `Reset` done, `status` running, no host move before it, and inside a
`Run` call `clk` below its budget; not between one `Run` call and the next (R33, R55, R56, R116). -/
def EngineReady (s : State) : Prop :=
  s.host.schedule = [] ∧ s.host.resetDone = true ∧ s.status = .running ∧ s.host.phase ≠ .returned ∧
    ∀ b, s.host.phase = .running b → (s.clk : Int) < b

/-- The instruction's bytes stand at `R[P]` upward, mod 2^16. -/
def BytesAtPc (i : Instr) (s : State) : Prop :=
  ∀ k, k < (encode i).length → s.byteAt (s.pc + BitVec.ofNat 16 k) = (encode i).getD k 0

/-- A silent channel's `count` is 0 (R52). -/
def SilentAtZero (g : Tone) : Prop := ∀ c : Chan, (g.chan c).silent = true → (g.chan c).count = 0

/-- The invariant of the machine: memory in canonical form; R52; `sampleCount` below 48000 (R51); `clk` a multiple of
8 and, inside `Run(b)` with `b >= 1`, at most `b + 23` (R118); an illegal stop names 0x68 (R301). -/
structure Inv (s : State) : Prop where
  mem_wf : Memory.wf s.mem = true
  silent_at_zero : SilentAtZero s.tone
  sample_count : s.tone.sampleCount < 48000
  clk_mod : s.clk % 8 = 0
  clk_bound : ∀ b, s.host.phase = .running b → 1 ≤ b → (s.clk : Int) ≤ b + 23
  illegal_op : ∀ op a, s.status = .illegalOpcode op a → op = 0x68

/-- What the environment and the state show of a `Run` call's result: the event of its end (R43, R116, R117). -/
def RunResult.observed : RunResult → Host.Outcome State Fault Refusal
  | .returned v s => .next (s.emit (.runReturned v))
  | .stopped st s => .next (s.emit (.runStopped st))
  | .refused r => .refused r

end Sys2Proof.Machine
end

