-- ==== Sys2Proof/Certificates/Slice0/Obligations.lean ====
section
/-! DEFINITION. The statements for the provers. Frames, `Row`, `EngineReady`, `BytesAtPc` and `Inv` are in
Sys2Proof/Safety.lean. -/

open Sys2Proof Sys2Proof.Machine

/-! ### Encoding (30_encoding.md) -/

/-- Words written out from the encodings of R91 and R94, one or more of each family, decode to their instructions
(the assignments inside 0x30-0x3F and 0xC0-0xCF are the spec's own: logs 11, 12). -/
def Obligations.WrittenWordsDecode : Prop :=
  decode [0b00000011#8] = .ok (.ldn 3, []) ∧ decode [0b00010111#8] = .ok (.inc 7, []) ∧
  decode [0b11111001#8, 0x18#8] = .ok (.ori 0x18, []) ∧ decode [0b01110110#8] = .ok (.shrc, []) ∧
  decode [0b11110101#8] = .ok (.sd, []) ∧ decode [0b01111101#8, 0x80#8] = .ok (.sdbi 0x80, []) ∧
  decode [0b00111010#8, 0x02#8] = .ok (.bnz 0x02, []) ∧
  decode [0b11000010#8, 0x80#8, 0x01#8] = .ok (.lbz 0x80 0x01, []) ∧ decode [0b11001100#8] = .ok (.lsie, []) ∧
  decode [0b01100100#8] = .ok (.out 4, []) ∧ decode [0b01101111#8] = .ok (.inp 7, []) ∧
  decode [0b01100000#8] = .ok (.irx, []) ∧ decode [0b01101000#8] = .ok (.illegal, []) ∧
  decode [0b00000000#8] = .ok (.idl, [])

/-- Decoding an encoded well-formed instruction gives it back, whatever bytes follow (R90 to R98). -/
def Obligations.DecodeOfEncodeIsTheInstruction : Prop :=
  ∀ (i : Instr) (rest : List Byte), i.wellFormed = true → decode (encode i ++ rest) = .ok (i, rest)

/-- Every byte string decodes to a well-formed instruction whose encoding is those bytes: no bit is dropped and every
opcode value has one meaning (R94, R102). -/
def Obligations.EncodeOfDecodeIsTheBytes : Prop :=
  ∀ op a b : Byte, (decodeBytes op a b).wellFormed = true ∧
    encode (decodeBytes op a b) = [op, a, b].take (decodeBytes op a b).length

/-- Exactly one opcode value is illegal, 0x68 (R100; that no other is, is the spec's decision D5, log 42); fetching it
as an opcode stops the engine with `IllegalOpcode`, and fetching any other does not. -/
def Obligations.OnlyOpcode68IsIllegal : Prop :=
  (∀ op a b : Byte, decodeBytes op a b = .illegal ↔ op = 0x68#8) ∧
  ∀ s : State, EngineReady s → ∃ t, step s = .next t ∧
    (s.opcode = 0x68#8 ↔ ∃ op a, t.status = .illegalOpcode op a)

/-! ### The instruction step (40_engine.md) -/

/-- When the bytes at `R[P]` encode a well-formed instruction and the engine is ready, the step fetches the opcode,
executes that instruction on the state after the fetch, and adds its cost unless it stopped the engine (R112, R117).
When `status` is not `Running` there is no step; before the first `Run` call, where the step stands by itself, the
model then answers a fault, its own choice (log 19). -/
def Obligations.StepRunsTheDecodedInstruction : Prop :=
  (∀ (i : Instr) (s : State), i.wellFormed = true → EngineReady s → BytesAtPc i s →
    ∃ t, exec i s.fetchOpcode = .next t ∧
      step s = .next (if t.status = .running then { t with clk := t.clk + cost s.opcode } else t)) ∧
  ∀ s : State, s.host.schedule = [] → s.host.phase = .stepping → s.host.resetDone = true → s.status ≠ .running →
    ∃ f, step s = .fault f

/-- `Fetch()` (R111) reads the byte at `R[P]` and increments `R[P]` mod 2^16, for the opcode byte and, with the byte the
decoder has placed in the instruction, for an operand byte (log 32). -/
def Obligations.FetchReadsAndAdvances : Prop :=
  ∀ (v : Byte) (s : State),
    (s.opcode = s.byteAt (s.reg s.p) ∧ s.fetchOpcode.reg s.p = s.reg s.p + 1 ∧
      s.fetchOpcode.events = .memRead (s.reg s.p) (s.byteAt (s.reg s.p)) :: s.events ∧
      RegsKeptBut [s.p] s s.fetchOpcode ∧ MemKept s s.fetchOpcode ∧ KeptBut [] s s.fetchOpcode) ∧
    ((s.fetchOperand v).reg s.p = s.reg s.p + 1 ∧
      (s.fetchOperand v).events = .memRead (s.reg s.p) v :: s.events ∧
      RegsKeptBut [s.p] s (s.fetchOperand v) ∧ MemKept s (s.fetchOperand v) ∧ KeptBut [] s (s.fetchOperand v))

/-- R300: a ready engine's step always completes, and only opcode 0x00 or 0x68 leaves the engine not running: no other
instruction, operand value, address or register value can stop or fault it. -/
def Obligations.OnlyTwoOpcodesStop : Prop :=
  ∀ s : State, EngineReady s → ∃ t, step s = .next t ∧
    (t.status ≠ .running ↔ s.opcode = 0x00#8 ∨ s.opcode = 0x68#8)

/-- A completed instruction costs 24 clock units when the opcode's high nibble is 0xC and 16 otherwise, whatever the
operands and the registers (R115); that the stopping step's cost is not accounted is the spec's decision (R117; logs 17,
18). -/
def Obligations.StepCostDependsOnOpcodeOnly : Prop :=
  ∀ s : State, EngineReady s → ∃ t, step s = .next t ∧
    t.clk = if s.opcode = 0x00#8 ∨ s.opcode = 0x68#8 then s.clk
      else if s.opcode.toNat / 16 = 12 then s.clk + 24 else s.clk + 16

/-- A store is seen by the very next fetch (R75, which the spec derives). For each instruction that stores, with its
address (as it is after the opcode fetch) the byte after the opcode: the opcode the next step fetches is the byte just
stored, whether the address comes from `R[P]` itself or from another register. The exceptions are STXD with `X = P` and
MARK with `P = 2`: their decrement takes `R[P]` back to the instruction itself, and the byte stands just after it. -/
def Obligations.StoreIsSeenByNextFetch : Prop :=
  ∀ s : State, EngineReady s →
    (∀ n : Reg, s.opcode = 0x5#4 ++ n → s.fetchOpcode.reg n = s.pc + 1 →
      ∃ t, step s = .next t ∧ t.pc = s.pc + 1 ∧ t.opcode = s.d) ∧
    (s.opcode = 0x73#8 → s.fetchOpcode.reg s.x = s.pc + 1 →
      ∃ t, step s = .next t ∧ t.byteAt (s.pc + 1) = s.d ∧
        (s.x ≠ s.p → t.pc = s.pc + 1 ∧ t.opcode = s.d) ∧ (s.x = s.p → t.pc = s.pc ∧ t.opcode = 0x73#8)) ∧
    (s.opcode = 0x78#8 → s.fetchOpcode.reg s.x = s.pc + 1 →
      ∃ t, step s = .next t ∧ t.pc = s.pc + 1 ∧ t.opcode = s.t) ∧
    (s.opcode = 0x79#8 → s.fetchOpcode.reg 2 = s.pc + 1 →
      ∃ t, step s = .next t ∧ t.byteAt (s.pc + 1) = s.x ++ s.p ∧
        (s.p ≠ 2 → t.pc = s.pc + 1 ∧ t.opcode = s.x ++ s.p) ∧ (s.p = 2 → t.pc = s.pc ∧ t.opcode = 0x79#8)) ∧
    (∀ p : Port, p ≠ 0 → s.opcode = 0b01101#5 ++ p → s.fetchOpcode.reg s.x = s.pc + 1 →
      ∃ t, step s = .next t ∧ t.pc = s.pc + 1 ∧ t.opcode = t.d ∧ ∀ b bs, s.env.portIn = b :: bs → t.d = b)

/-! ### Loads and stores (41_memory_reference.md) -/

/-- R131, R133: LDN and LDX load the byte at `R[n]` or `R[X]` and change nothing else. -/
def Obligations.LoadsWithoutAdvance : Prop :=
  ∀ (n : Reg) (s : State),
    ((n ≠ 0#4 → Row (.ldn n) [0x0#4 ++ n] 16) ∧ ∃ t, exec (.ldn n) s = .next t ∧ t.d = s.byteAt (s.reg n) ∧
      t.events = .memRead (s.reg n) (s.byteAt (s.reg n)) :: s.events ∧
      RegsKeptBut [] s t ∧ MemKept s t ∧ KeptBut [.d] s t) ∧
    (Row .ldx [0xF0#8] 16 ∧ ∃ t, exec .ldx s = .next t ∧ t.d = s.byteAt (s.reg s.x) ∧
      t.events = .memRead (s.reg s.x) (s.byteAt (s.reg s.x)) :: s.events ∧
      RegsKeptBut [] s t ∧ MemKept s t ∧ KeptBut [.d] s t)

/-- R132, R134: LDA and LDXA load the byte at `R[n]` or `R[X]` and then increment that register mod 2^16. -/
def Obligations.LoadsWithAdvance : Prop :=
  ∀ (n : Reg) (s : State),
    (Row (.lda n) [0x4#4 ++ n] 16 ∧ ∃ t, exec (.lda n) s = .next t ∧ t.d = s.byteAt (s.reg n) ∧
      (t.reg n).toNat = ((s.reg n).toNat + 1) % 65536 ∧
      t.events = .memRead (s.reg n) (s.byteAt (s.reg n)) :: s.events ∧
      RegsKeptBut [n] s t ∧ MemKept s t ∧ KeptBut [.d] s t) ∧
    (Row .ldxa [0x72#8] 16 ∧ ∃ t, exec .ldxa s = .next t ∧ t.d = s.byteAt (s.reg s.x) ∧
      (t.reg s.x).toNat = ((s.reg s.x).toNat + 1) % 65536 ∧
      t.events = .memRead (s.reg s.x) (s.byteAt (s.reg s.x)) :: s.events ∧
      RegsKeptBut [s.x] s t ∧ MemKept s t ∧ KeptBut [.d] s t)

/-- R135: LDI loads its operand byte, one further fetch. -/
def Obligations.LoadImmediateTakesOperand : Prop :=
  ∀ (v : Byte) (s : State), Row (.ldi v) [0xF8#8, v] 16 ∧ ∃ t, exec (.ldi v) s = .next t ∧ t.d = v ∧
    t.reg s.p = s.reg s.p + 1 ∧ t.events = .memRead (s.reg s.p) v :: s.events ∧
    RegsKeptBut [s.p] s t ∧ MemKept s t ∧ KeptBut [.d] s t

/-- R136, R234: STR stores `D` at `R[n]`, SAV stores `T` at `R[X]`; every other cell and every register is as before. -/
def Obligations.StoresWriteOneCell : Prop :=
  ∀ (n : Reg) (s : State),
    (Row (.str n) [0x5#4 ++ n] 16 ∧ ∃ t, exec (.str n) s = .next t ∧ t.byteAt (s.reg n) = s.d ∧
      MemKeptBut (s.reg n) s t ∧ t.events = .memWrite (s.reg n) s.d :: s.events ∧
      RegsKeptBut [] s t ∧ KeptBut [] s t) ∧
    (Row .sav [0x78#8] 16 ∧ ∃ t, exec .sav s = .next t ∧ t.byteAt (s.reg s.x) = s.t ∧
      MemKeptBut (s.reg s.x) s t ∧ t.events = .memWrite (s.reg s.x) s.t :: s.events ∧
      RegsKeptBut [] s t ∧ KeptBut [] s t)

/-- R137: STXD stores `D` at `R[X]` and then decrements `R[X]` mod 2^16. -/
def Obligations.StoreAndRetreat : Prop :=
  ∀ s : State, Row .stxd [0x73#8] 16 ∧ ∃ t, exec .stxd s = .next t ∧ t.byteAt (s.reg s.x) = s.d ∧
    MemKeptBut (s.reg s.x) s t ∧ (t.reg s.x).toNat = ((s.reg s.x).toNat + 65535) % 65536 ∧
    t.events = .memWrite (s.reg s.x) s.d :: s.events ∧ RegsKeptBut [s.x] s t ∧ KeptBut [] s t

/-! ### Register operations (42_register_ops.md) -/

/-- R141, R142, R143: INC, DEC and IRX add or subtract 1 mod 2^16 and set no flag. -/
def Obligations.IncrementAndDecrement : Prop :=
  ∀ (n : Reg) (s : State),
    (Row (.inc n) [0x1#4 ++ n] 16 ∧ ∃ t, exec (.inc n) s = .next t ∧
      (t.reg n).toNat = ((s.reg n).toNat + 1) % 65536 ∧ t.events = s.events ∧
      RegsKeptBut [n] s t ∧ MemKept s t ∧ KeptBut [] s t) ∧
    (Row (.dec n) [0x2#4 ++ n] 16 ∧ ∃ t, exec (.dec n) s = .next t ∧
      (t.reg n).toNat = ((s.reg n).toNat + 65535) % 65536 ∧ t.events = s.events ∧
      RegsKeptBut [n] s t ∧ MemKept s t ∧ KeptBut [] s t) ∧
    (Row .irx [0x60#8] 16 ∧ ∃ t, exec .irx s = .next t ∧
      (t.reg s.x).toNat = ((s.reg s.x).toNat + 1) % 65536 ∧ t.events = s.events ∧
      RegsKeptBut [s.x] s t ∧ MemKept s t ∧ KeptBut [] s t)

/-- R144 to R147: GLO and GHI copy the low or high byte of `R[n]` to `D`; PLO and PHI replace that byte of `R[n]` by
`D` and keep the other. -/
def Obligations.RegisterBytesMoveThroughD : Prop :=
  ∀ (n : Reg) (s : State),
    (Row (.glo n) [0x8#4 ++ n] 16 ∧ ∃ t, exec (.glo n) s = .next t ∧ t.d.toNat = (s.reg n).toNat % 256 ∧
      t.events = s.events ∧ RegsKeptBut [] s t ∧ MemKept s t ∧ KeptBut [.d] s t) ∧
    (Row (.ghi n) [0x9#4 ++ n] 16 ∧ ∃ t, exec (.ghi n) s = .next t ∧ t.d.toNat = (s.reg n).toNat / 256 ∧
      t.events = s.events ∧ RegsKeptBut [] s t ∧ MemKept s t ∧ KeptBut [.d] s t) ∧
    (Row (.plo n) [0xA#4 ++ n] 16 ∧ ∃ t, exec (.plo n) s = .next t ∧
      (t.reg n).toNat = (s.reg n).toNat / 256 * 256 + s.d.toNat ∧
      t.events = s.events ∧ RegsKeptBut [n] s t ∧ MemKept s t ∧ KeptBut [] s t) ∧
    (Row (.phi n) [0xB#4 ++ n] 16 ∧ ∃ t, exec (.phi n) s = .next t ∧
      (t.reg n).toNat = s.d.toNat * 256 + (s.reg n).toNat % 256 ∧
      t.events = s.events ∧ RegsKeptBut [n] s t ∧ MemKept s t ∧ KeptBut [] s t)

/-- R148, R150: SEP makes `R[n]` the program counter, the next opcode being fetched from it; SEX selects `R[n]` as the
index register. Neither writes a register. -/
def Obligations.SelectRegisters : Prop :=
  ∀ (n : Reg) (s : State),
    (Row (.sep n) [0xD#4 ++ n] 16 ∧ ∃ t, exec (.sep n) s = .next t ∧ t.p = n ∧ t.pc = s.reg n ∧
      t.events = s.events ∧ RegsKeptBut [] s t ∧ MemKept s t ∧ KeptBut [.p] s t) ∧
    (Row (.sex n) [0xE#4 ++ n] 16 ∧ ∃ t, exec (.sex n) s = .next t ∧ t.x = n ∧ t.pc = s.pc ∧
      t.events = s.events ∧ RegsKeptBut [] s t ∧ MemKept s t ∧ KeptBut [.x] s t)

/-! ### Logic and shifts (43_logic_shift.md) -/

/-- R156, R157, R158: OR, AND and XOR combine `D` with the byte at `R[X]` bit by bit and leave `DF` alone. -/
def Obligations.LogicWithMemory : Prop :=
  ∀ (i : Instr) (op : Byte) (f : Bool → Bool → Bool) (s : State),
    (i, op, f) ∈ [(Instr.or, 0xF1#8, (· || ·)), (Instr.and, 0xF2#8, (· && ·)), (Instr.xor, 0xF3#8, (· ^^ ·))] →
    Row i [op] 16 ∧ ∃ t, exec i s = .next t ∧
      (∀ k, k < 8 → t.d.getLsbD k = f (s.d.getLsbD k) ((s.byteAt (s.reg s.x)).getLsbD k)) ∧
      t.events = .memRead (s.reg s.x) (s.byteAt (s.reg s.x)) :: s.events ∧
      RegsKeptBut [] s t ∧ MemKept s t ∧ KeptBut [.d] s t

/-- R159, R160, R161: ORI, ANI and XRI combine `D` with the operand byte bit by bit and leave `DF` alone. -/
def Obligations.LogicImmediate : Prop :=
  ∀ (v : Byte) (i : Instr) (op : Byte) (f : Bool → Bool → Bool) (s : State),
    (i, op, f) ∈ [(Instr.ori v, 0xF9#8, (· || ·)), (Instr.ani v, 0xFA#8, (· && ·)), (Instr.xri v, 0xFB#8, (· ^^ ·))] →
    Row i [op, v] 16 ∧ ∃ t, exec i s = .next t ∧
      (∀ k, k < 8 → t.d.getLsbD k = f (s.d.getLsbD k) (v.getLsbD k)) ∧
      t.reg s.p = s.reg s.p + 1 ∧ t.events = .memRead (s.reg s.p) v :: s.events ∧
      RegsKeptBut [s.p] s t ∧ MemKept s t ∧ KeptBut [.d] s t

/-- R162, R164: SHR and SHL shift `D` by one place, a 0 coming in whatever `DF` was; the bit going out is the new
`DF`. -/
def Obligations.ShiftsTakeInZero : Prop :=
  ∀ s : State,
    (Row .shr [0xF6#8] 16 ∧ ∃ t, exec .shr s = .next t ∧ t.d.toNat = s.d.toNat / 2 ∧
      t.df = decide (s.d.toNat % 2 = 1) ∧ t.events = s.events ∧
      RegsKeptBut [] s t ∧ MemKept s t ∧ KeptBut [.d, .df] s t) ∧
    (Row .shl [0xFE#8] 16 ∧ ∃ t, exec .shl s = .next t ∧ t.d.toNat = 2 * s.d.toNat % 256 ∧
      t.df = decide (128 ≤ s.d.toNat) ∧ t.events = s.events ∧
      RegsKeptBut [] s t ∧ MemKept s t ∧ KeptBut [.d, .df] s t)

/-- R163, R165: SHRC and SHLC shift `D` by one place, the old `DF` coming in and the bit going out being the new `DF`:
a 9-bit rotate, so nine executions in a row, either way, leave the whole state as it was. -/
def Obligations.RotatesGoThroughDF : Prop :=
  (∀ s : State,
    (Row .shrc [0x76#8] 16 ∧ ∃ t, exec .shrc s = .next t ∧ t.d.toNat = 128 * s.df.toNat + s.d.toNat / 2 ∧
      t.df = decide (s.d.toNat % 2 = 1) ∧ t.events = s.events ∧
      RegsKeptBut [] s t ∧ MemKept s t ∧ KeptBut [.d, .df] s t) ∧
    (Row .shlc [0x7E#8] 16 ∧ ∃ t, exec .shlc s = .next t ∧
      t.d.toNat = (2 * s.d.toNat + s.df.toNat) % 256 ∧
      t.df = decide (128 ≤ s.d.toNat) ∧ t.events = s.events ∧
      RegsKeptBut [] s t ∧ MemKept s t ∧ KeptBut [.d, .df] s t)) ∧
  ∀ (i : Instr) (s : State), i = .shrc ∨ i = .shlc →
    ∃ ts : Nat → State, ts 0 = s ∧ (∀ k, k < 9 → exec i (ts k) = .next (ts (k + 1))) ∧ ts 9 = s

/-! ### Arithmetic (44_arithmetic.md) -/

/-- R173, R174: ADD and ADC: `D' + 256 * DF' = D + M + carry-in` exactly, `M` the byte at `R[X]`. -/
def Obligations.AddWithMemory : Prop :=
  ∀ s : State,
    (Row .add [0xF4#8] 16 ∧ ∃ t, exec .add s = .next t ∧
      t.d.toNat + 256 * t.df.toNat = s.d.toNat + (s.byteAt (s.reg s.x)).toNat ∧
      t.events = .memRead (s.reg s.x) (s.byteAt (s.reg s.x)) :: s.events ∧
      RegsKeptBut [] s t ∧ MemKept s t ∧ KeptBut [.d, .df] s t) ∧
    (Row .adc [0x74#8] 16 ∧ ∃ t, exec .adc s = .next t ∧
      t.d.toNat + 256 * t.df.toNat = s.d.toNat + (s.byteAt (s.reg s.x)).toNat + s.df.toNat ∧
      t.events = .memRead (s.reg s.x) (s.byteAt (s.reg s.x)) :: s.events ∧
      RegsKeptBut [] s t ∧ MemKept s t ∧ KeptBut [.d, .df] s t)

/-- R175 to R178: SD, SDB, SM and SMB: `D' - 256 * (1 - DF') = minuend - subtrahend - borrow-in` exactly; the minuend
is the byte at `R[X]` for SD and SDB and `D` for SM and SMB; the borrow-in is `1 - DF` for SDB and SMB and else 0. -/
def Obligations.SubtractWithMemory : Prop :=
  ∀ (s : State) (i : Instr) (op : Byte) (m sub bin : Int),
    (i, op, m, sub, bin) ∈
      [(Instr.sd, 0xF5#8, ((s.byteAt (s.reg s.x)).toNat : Int), (s.d.toNat : Int), 0),
       (Instr.sdb, 0x75#8, ((s.byteAt (s.reg s.x)).toNat : Int), (s.d.toNat : Int), 1 - (s.df.toNat : Int)),
       (Instr.sm, 0xF7#8, (s.d.toNat : Int), ((s.byteAt (s.reg s.x)).toNat : Int), 0),
       (Instr.smb, 0x77#8, (s.d.toNat : Int), ((s.byteAt (s.reg s.x)).toNat : Int), 1 - (s.df.toNat : Int))] →
    Row i [op] 16 ∧ ∃ t, exec i s = .next t ∧
      (t.d.toNat : Int) - 256 * (1 - (t.df.toNat : Int)) = m - sub - bin ∧ (t.df = true ↔ m ≥ sub + bin) ∧
      t.events = .memRead (s.reg s.x) (s.byteAt (s.reg s.x)) :: s.events ∧
      RegsKeptBut [] s t ∧ MemKept s t ∧ KeptBut [.d, .df] s t

/-- The six immediate forms: as the memory forms with the operand byte in place of the byte at `R[X]`, and `R[P]` one
further on. Which opcode has which operand order is the spec's inference (R96, log 39). -/
def Obligations.ImmediateArithmetic : Prop :=
  ∀ (v : Byte) (s : State) (i : Instr) (op : Byte) (result : Int),
    (i, op, result) ∈
      [(Instr.adi v, 0xFC#8, (s.d.toNat : Int) + v.toNat - 256),
       (Instr.adci v, 0x7C#8, (s.d.toNat : Int) + v.toNat + s.df.toNat - 256),
       (Instr.sdi v, 0xFD#8, (v.toNat : Int) - s.d.toNat),
       (Instr.sdbi v, 0x7D#8, (v.toNat : Int) - s.d.toNat - (1 - (s.df.toNat : Int))),
       (Instr.smi v, 0xFF#8, (s.d.toNat : Int) - v.toNat),
       (Instr.smbi v, 0x7F#8, (s.d.toNat : Int) - v.toNat - (1 - (s.df.toNat : Int)))] →
    Row i [op, v] 16 ∧ ∃ t, exec i s = .next t ∧
      (t.d.toNat : Int) - 256 * (1 - (t.df.toNat : Int)) = result ∧
      t.reg s.p = s.reg s.p + 1 ∧ t.events = .memRead (s.reg s.p) v :: s.events ∧
      RegsKeptBut [s.p] s t ∧ MemKept s t ∧ KeptBut [.d, .df] s t

/-- A multi-byte addition is an add of the low bytes and an add-with-carry of the high bytes: LDI, ADI, LDI, ADCI give
the 16-bit sum and its carry (R171 item 6; log 39). -/
def Obligations.CarryChainAddsWords : Prop :=
  ∀ (a b : Word) (s : State), ∃ t1 t2 t3 t4,
    exec (.ldi (lo a)) s = .next t1 ∧ exec (.adi (lo b)) t1 = .next t2 ∧
    exec (.ldi (hi a)) t2 = .next t3 ∧ exec (.adci (hi b)) t3 = .next t4 ∧
    join t4.d t2.d = a + b ∧ t4.df = decide (65536 ≤ a.toNat + b.toNat)

/-! ### Branches and skips (45_short_branch.md, 46_long_branch_skip.md) -/

/-- The eight short branches that test no external flag (R191 to R196, R201 to R204). Taken: the operand byte is read
and becomes the low byte of `R[P]`, the high byte being that of the operand's own address (log 14). Not taken: `R[P]`
advances by 1 and nothing is read. Which opcode tests which condition is the spec's assignment (log 11). -/
def Obligations.ShortBranchesOnState : Prop :=
  ∀ (a8 : Byte) (s : State) (i : Instr) (op : Byte) (c : Bool),
    (i = .br a8 ∧ op = 0x30#8 ∧ c = true) ∨ (i = .bq a8 ∧ op = 0x31#8 ∧ c = s.q) ∨
    (i = .bz a8 ∧ op = 0x32#8 ∧ c = decide (s.d.toNat = 0)) ∨ (i = .bdf a8 ∧ op = 0x33#8 ∧ c = s.df) ∨
    (i = .skp a8 ∧ op = 0x38#8 ∧ c = false) ∨ (i = .bnq a8 ∧ op = 0x39#8 ∧ c = !s.q) ∨
    (i = .bnz a8 ∧ op = 0x3A#8 ∧ c = decide (s.d.toNat ≠ 0)) ∨ (i = .bnf a8 ∧ op = 0x3B#8 ∧ c = !s.df) →
    Row i [op, a8] 16 ∧ ∃ t, exec i s = .next t ∧
      (t.reg s.p).toNat =
        (if c then (s.reg s.p).toNat / 256 * 256 + a8.toNat else ((s.reg s.p).toNat + 1) % 65536) ∧
      t.events = (if c then .memRead (s.reg s.p) a8 :: s.events else s.events) ∧
      RegsKeptBut [s.p] s t ∧ MemKept s t ∧ KeptBut [] s t

/-- The eight short branches on an external flag (R197 to R200, R205 to R208): each samples the one flag it tests,
once, and branches when the sample equals the level it waits for. The sample is the environment's draw: the answer it
has lined up, if there is one, else a free value (log 3). Opcode assignment: log 11; page of the target: log 14. -/
def Obligations.ShortBranchesOnFlags : Prop :=
  ∀ (a8 : Byte) (s : State) (i : Instr) (op : Byte) (k : ExtFlag) (level : Bool),
    (i, op, k, level) ∈
      [(Instr.b1 a8, 0x34#8, .ef1, true), (Instr.b2 a8, 0x35#8, .ef2, true), (Instr.b3 a8, 0x36#8, .ef3, true),
       (Instr.b4 a8, 0x37#8, .ef4, true), (Instr.bn1 a8, 0x3C#8, .ef1, false), (Instr.bn2 a8, 0x3D#8, .ef2, false),
       (Instr.bn3 a8, 0x3E#8, .ef3, false), (Instr.bn4 a8, 0x3F#8, .ef4, false)] →
    Row i [op, a8] 16 ∧ ∃ t v, exec i s = .next t ∧ (∀ l ls, s.env.efIn = l :: ls → v = l.level k) ∧
      (t.reg s.p).toNat =
        (if v = level then (s.reg s.p).toNat / 256 * 256 + a8.toNat else ((s.reg s.p).toNat + 1) % 65536) ∧
      t.events =
        (if v = level then .memRead (s.reg s.p) a8 :: .efSample k v :: s.events else .efSample k v :: s.events) ∧
      t.env = { s.env with efIn := s.env.efIn.drop 1, draws := s.env.draws + 1 } ∧
      RegsKeptBut [s.p] s t ∧ MemKept s t ∧ KeptBut [.env] s t

/-- The seven long branches (R211, R213 to R216, R222 to R224): both operand bytes are fetched; taken, `R[P]` is the
operand, high byte first (log 13); not taken, `R[P]` has advanced by 2. Opcode assignment: log 12; reading both bytes
when not taken: log 31. -/
def Obligations.LongBranchesSetPc : Prop :=
  ∀ (ahi alo : Byte) (s : State) (i : Instr) (op : Byte) (c : Bool),
    (i = .lbr ahi alo ∧ op = 0xC0#8 ∧ c = true) ∨ (i = .lbq ahi alo ∧ op = 0xC1#8 ∧ c = s.q) ∨
    (i = .lbz ahi alo ∧ op = 0xC2#8 ∧ c = decide (s.d.toNat = 0)) ∨ (i = .lbdf ahi alo ∧ op = 0xC3#8 ∧ c = s.df) ∨
    (i = .lbnq ahi alo ∧ op = 0xC9#8 ∧ c = !s.q) ∨ (i = .lbnz ahi alo ∧ op = 0xCA#8 ∧ c = decide (s.d.toNat ≠ 0)) ∨
    (i = .lbnf ahi alo ∧ op = 0xCB#8 ∧ c = !s.df) →
    Row i [op, ahi, alo] 24 ∧ ∃ t, exec i s = .next t ∧
      (t.reg s.p).toNat =
        (if c then ahi.toNat * 256 + alo.toNat else ((s.reg s.p).toNat + 2) % 65536) ∧
      t.events = .memRead (s.reg s.p + 1) alo :: .memRead (s.reg s.p) ahi :: s.events ∧
      RegsKeptBut [s.p] s t ∧ MemKept s t ∧ KeptBut [] s t

/-- The eight long skips (R212, R218 to R221, R225 to R228): `R[P]` advances by 2 when the condition holds, nothing is
read, and nothing else changes. Opcode assignment: log 12. -/
def Obligations.LongSkipsPassTwoBytes : Prop :=
  ∀ (s : State) (i : Instr) (op : Byte) (c : Bool),
    (i = .lsnq ∧ op = 0xC5#8 ∧ c = !s.q) ∨ (i = .lsnz ∧ op = 0xC6#8 ∧ c = decide (s.d.toNat ≠ 0)) ∨
    (i = .lsnf ∧ op = 0xC7#8 ∧ c = !s.df) ∨ (i = .lskp ∧ op = 0xC8#8 ∧ c = true) ∨
    (i = .lsie ∧ op = 0xCC#8 ∧ c = s.ie) ∨ (i = .lsq ∧ op = 0xCD#8 ∧ c = s.q) ∨
    (i = .lsz ∧ op = 0xCE#8 ∧ c = decide (s.d.toNat = 0)) ∨ (i = .lsdf ∧ op = 0xCF#8 ∧ c = s.df) →
    Row i [op] 24 ∧ ∃ t, exec i s = .next t ∧
      (t.reg s.p).toNat = (if c then ((s.reg s.p).toNat + 2) % 65536 else (s.reg s.p).toNat) ∧
      t.events = s.events ∧ RegsKeptBut [s.p] s t ∧ MemKept s t ∧ KeptBut [] s t

/-- R217: 0xC4 is a true no-operation, of cost 24: executing it leaves the whole state as it was. -/
def Obligations.NopChangesNothing : Prop := Row .nop [0xC4#8] 24 ∧ ∀ s : State, exec .nop s = .next s

/-! ### Control, linkage, input and output (47_control_io.md) -/

/-- REQ and SEQ set `Q` and notify the observer of the new value (R232, R233), also when it is the old one, which is the
spec's decision (log 21). -/
def Obligations.QIsSetAndNotified : Prop :=
  ∀ s : State,
    (Row .req [0x7A#8] 16 ∧ ∃ t, exec .req s = .next t ∧ t.q = false ∧ t.events = .notifyQ false :: s.events ∧
      RegsKeptBut [] s t ∧ MemKept s t ∧ KeptBut [.q] s t) ∧
    (Row .seq [0x7B#8] 16 ∧ ∃ t, exec .seq s = .next t ∧ t.q = true ∧ t.events = .notifyQ true :: s.events ∧
      RegsKeptBut [] s t ∧ MemKept s t ∧ KeptBut [.q] s t)

/-- R235: MARK saves `X` and `P` in `T` and at `R[2]`, makes `X = P`, and decrements `R[2]` mod 2^16. -/
def Obligations.MarkSavesXAndP : Prop :=
  ∀ s : State, Row .mark [0x79#8] 16 ∧ ∃ t, exec .mark s = .next t ∧
    t.t.toNat = s.x.toNat * 16 + s.p.toNat ∧ t.x = s.p ∧ t.byteAt (s.reg 2) = t.t ∧
    MemKeptBut (s.reg 2) s t ∧ (t.reg 2).toNat = ((s.reg 2).toNat + 65535) % 65536 ∧
    t.events = .memWrite (s.reg 2) t.t :: s.events ∧ RegsKeptBut [2] s t ∧ KeptBut [.t, .x] s t

/-- RET and DIS pop `(X,P)` from `R[X]`, the register that the old `X` selects being incremented (R236, R237; log 16),
and set or clear `IE`. -/
def Obligations.RetAndDisPopXAndP : Prop :=
  ∀ (s : State) (i : Instr) (op : Byte) (enable : Bool),
    (i = .ret ∧ op = 0x70#8 ∧ enable = true) ∨ (i = .dis ∧ op = 0x71#8 ∧ enable = false) →
    Row i [op] 16 ∧ ∃ t, exec i s = .next t ∧
      t.x.toNat = (s.byteAt (s.reg s.x)).toNat / 16 ∧ t.p.toNat = (s.byteAt (s.reg s.x)).toNat % 16 ∧
      t.ie = enable ∧ (t.reg s.x).toNat = ((s.reg s.x).toNat + 1) % 65536 ∧
      t.events = .memRead (s.reg s.x) (s.byteAt (s.reg s.x)) :: s.events ∧
      RegsKeptBut [s.x] s t ∧ MemKept s t ∧ KeptBut [.x, .p, .ie] s t

/-- MARK, then the pointer stepped up and RET through `R[2]`, restores the marked `X` and `P` (R241, R235, R236;
log 16). -/
def Obligations.RetUndoesMark : Prop :=
  ∀ s : State, ∃ t1 t2 t3 t4,
    exec .mark s = .next t1 ∧ exec (.inc 2) t1 = .next t2 ∧ exec (.sex 2) t2 = .next t3 ∧
    exec .ret t3 = .next t4 ∧ t4.x = s.x ∧ t4.p = s.p ∧ t4.ie = true ∧ t4.reg 2 = s.reg 2 + 1 ∧
    RegsKeptBut [2] s t4 ∧ MemKeptBut (s.reg 2) s t4

/-- OUT reads the byte at `R[X]`, writes it to port `p`, then increments `R[X]` (R238, R72); that `D` and memory stay
as they are and no input follows is the spec's decision (log 15). -/
def Obligations.OutWritesPort : Prop :=
  ∀ (p : Port) (s : State), (p ≠ 0#3 → Row (.out p) [0b01100#5 ++ p] 16) ∧ ∃ t, exec (.out p) s = .next t ∧
    t.events = .outPort p (s.byteAt (s.reg s.x)) :: .memRead (s.reg s.x) (s.byteAt (s.reg s.x)) :: s.events ∧
    (t.reg s.x).toNat = ((s.reg s.x).toNat + 1) % 65536 ∧
    RegsKeptBut [s.x] s t ∧ MemKept s t ∧ KeptBut [] s t

/-- R239: INP makes one `InPort` transaction and puts the byte it returns in `D` and at `R[X]`, which is unchanged. The
byte is the environment's draw: the one it has lined up, if there is one, else a free value (log 4). -/
def Obligations.InpStoresPortByte : Prop :=
  ∀ (p : Port) (s : State), (p ≠ 0#3 → Row (.inp p) [0b01101#5 ++ p] 16) ∧ ∃ t v, exec (.inp p) s = .next t ∧
    (∀ b bs, s.env.portIn = b :: bs → v = b) ∧ t.d = v ∧ t.byteAt (s.reg s.x) = v ∧ MemKeptBut (s.reg s.x) s t ∧
    t.events = .memWrite (s.reg s.x) v :: .inPort p v :: s.events ∧
    t.env = { s.env with portIn := s.env.portIn.drop 1, draws := s.env.draws + 1 } ∧
    RegsKeptBut [] s t ∧ KeptBut [.d, .env] s t

/-- IDL stops the engine as `Halted` and 0x68 as `IllegalOpcode(0x68, addr)`, with the event and no other effect (R231,
R240). What the stop leaves behind is the spec's decision (logs 17, 18). `addr` is one before the `R[P]` of after the
fetch. -/
def Obligations.StoppingInstructionsStop : Prop :=
  ∀ s : State,
    (Row .idl [0x00#8] 16 ∧ ∃ t, exec .idl s = .next t ∧ t.status = .halted ∧ t.events = .halt :: s.events ∧
      RegsKeptBut [] s t ∧ MemKept s t ∧ KeptBut [.status] s t) ∧
    (Row .illegal [0x68#8] 16 ∧ ∃ t, exec .illegal s = .next t ∧
      t.status = .illegalOpcode 0x68#8 (s.reg s.p - 1) ∧
      t.events = .illegalOpcode 0x68#8 (s.reg s.p - 1) :: s.events ∧
      RegsKeptBut [] s t ∧ MemKept s t ∧ KeptBut [.status] s t)

/-- A stopping step has fetched its opcode and has no other effect: `R[P]` is one beyond the opcode, `addr` is the
opcode's address, `clk` is as before (R117, R301, R302; logs 17, 18). -/
def Obligations.StoppingStepOnlyFetches : Prop :=
  ∀ (s : State) (st : Status),
    EngineReady s →
    (s.opcode = 0x00#8 ∧ st = .halted) ∨ (s.opcode = 0x68#8 ∧ st = .illegalOpcode 0x68#8 s.pc) →
    ∃ t, step s = .next t ∧ t.status = st ∧ t.reg s.p = s.reg s.p + 1 ∧
      RegsKeptBut [s.p] s t ∧ MemKept s t ∧ KeptBut [.status] s t

/-- A stopped engine stays stopped: from a state whose `status` is not `Running` every step that completes leaves all
engine registers, memory and `status` as they are, unless it is the host's `Reset` (which makes it `Running`) or the
host's memory write (R33, R308, R314; logs 17, 18). -/
def Obligations.StoppedEngineStaysStopped : Prop :=
  ∀ s t : State, s.status ≠ .running → step s = .next t →
    (s.host.schedule.head? = some .reset ∧ t.status = .running) ∨
    (RegsKeptBut [] s t ∧ KeptBut [.clk, .tone, .env, .host] s t ∧
      (MemKept s t ∨ ∃ a v, s.host.schedule.head? = some (.load a v) ∧ MemKeptBut a s t ∧ t.byteAt a = v))

/-! ### Rules of the whole machine -/

/-- Which instructions can write `T`, `IE`, `Q`, `DF`, `X` and `P` (R27, R28 to R32): no other does. -/
def Obligations.OnlyTheseWriteControlState : Prop :=
  ∀ (i : Instr) (s t : State), exec i s = .next t →
    (t.t ≠ s.t → i = .mark) ∧
    (t.ie ≠ s.ie → i = .ret ∨ i = .dis) ∧
    (t.q ≠ s.q → i = .req ∨ i = .seq) ∧
    (t.df ≠ s.df → i ∈ [Instr.add, .adc, .sd, .sdb, .sm, .smb, .shr, .shrc, .shl, .shlc] ∨
      ∃ v, i ∈ [Instr.adi v, .adci v, .sdi v, .sdbi v, .smi v, .smbi v]) ∧
    (t.x ≠ s.x → (∃ n, i = .sex n) ∨ i = .mark ∨ i = .ret ∨ i = .dis) ∧
    (t.p ≠ s.p → (∃ n, i = .sep n) ∨ i = .ret ∨ i = .dis)

/-- Only STR, STXD, SAV, MARK and INP can change a byte of memory, and each changes one cell at most, the one at the
address it stores to (R64, R66). -/
def Obligations.OnlyStoresWriteMemory : Prop :=
  ∀ (i : Instr) (s t : State) (a : Word), exec i s = .next t → t.byteAt a ≠ s.byteAt a →
    (∃ n, i = .str n ∧ a = s.reg n) ∨ (i = .stxd ∧ a = s.reg s.x) ∨ (i = .sav ∧ a = s.reg s.x) ∨
    (i = .mark ∧ a = s.reg 2) ∨ (∃ p, i = .inp p ∧ a = s.reg s.x)

/-- The engine and the tone generator are apart: an engine turn, taken because nothing is scheduled or because the
schedule has it next, leaves the tone generator as it is; a tone operation leaves every engine register, memory and `clk` as they are; and what a tone operation does to the generator depends on
the generator (and, for an unspecified staged byte, the draw) alone (R77, R284). -/
def Obligations.EngineAndToneAreApart : Prop :=
  (∀ s t : State, s.host.schedule = [] ∨ (∃ ms, s.host.schedule = .engine :: ms) → step s = .next t →
    t.tone = s.tone) ∧
  ∀ (m : Move) (ms ms' : List Move) (s s' : State),
    m = .mute ∨ m = .produceSample ∨ (∃ sel data, m = .setRegister sel data) →
    s.host.schedule = m :: ms → s'.host.schedule = m :: ms' → s'.tone = s.tone → s'.env.draws = s.env.draws →
    ∃ t t', step s = .next t ∧ step s' = .next t' ∧ t'.tone = t.tone ∧
      RegsKeptBut [] s t ∧ MemKept s t ∧ KeptBut [.tone, .env, .host] s t ∧
      t.env.efIn = s.env.efIn ∧ t.env.portIn = s.env.portIn

/-! ### Reset and Run (40_engine.md, 70_reset_and_hazards.md) -/

/-- The state after reset: the engine as R53 gives it, the tone generator at power-on (R54). The other fields are the
model's choice (logs 2, 6, 7, 8, 29, 33). -/
def Obligations.ResetStateIsZeroed : Prop :=
  (∀ k, State.reset.reg k = 0) ∧ State.reset.d = 0 ∧ State.reset.df = false ∧ State.reset.x = 0 ∧
  State.reset.p = 0 ∧ State.reset.q = false ∧ State.reset.t = 0 ∧ State.reset.ie = false ∧
  State.reset.status = .running ∧ State.reset.pc = 0 ∧
  (∀ c, State.reset.tone.chan c = { count := 0, delta := 0, volumeLeft := 0, volumeRight := 0, waveType := 0 }) ∧
  State.reset.tone.stage.tag = none ∧ State.reset.tone.clipCount = 0 ∧ State.reset.tone.sampleCount = 0

/-- The host's `Reset`, from any state in which no `Run` call is in progress, zeroes every engine register and flag,
makes `status` `Running`, and changes nothing else: not memory, not the tone generator, and nobody is notified (R330,
R331; logs 26, 28). Inside a `Run` call it is refused. -/
def Obligations.ResetZeroesTheEngine : Prop :=
  ∀ (s : State) (ms : List Move), s.host.schedule = .reset :: ms →
    ((∀ b, s.host.phase ≠ .running b) → ∃ t, step s = .next t ∧ (∀ k, t.reg k = 0) ∧ t.d = 0 ∧ t.df = false ∧ t.x = 0 ∧
      t.p = 0 ∧ t.q = false ∧ t.t = 0 ∧ t.ie = false ∧ t.status = .running ∧ t.mem = s.mem ∧ t.tone = s.tone ∧
      t.events = s.events ∧ t.env = s.env ∧ t.clk = s.clk ∧
      t.host = { schedule := ms, phase := s.host.phase, resetDone := true }) ∧
    (∀ b, s.host.phase = .running b → step s = .refused .hostMoveDuringRun)

/-- `Run(b)` with `b >= 1` either returns an overshoot in 0 to 23, with `status` running and that many units beyond `b`
accounted, or reports a stop (R116 to R118; loop form: R116 and log 8). -/
def Obligations.RunOvershootIsBounded : Prop :=
  ∀ (b : Int) (s : State), 1 ≤ b → s.host.resetDone = true →
    (∃ v t, runCall b s = .returned v t ∧ 0 ≤ v ∧ v ≤ 23 ∧ (t.clk : Int) = b + v ∧ t.status = .running) ∨
    (∃ t, t.status ≠ .running ∧ runCall b s = .stopped t.status t)

/-- `Run(b)` with `b` from 1 to 16 on an INC instruction executes exactly that instruction and returns `16 - b` (R120,
R141). -/
def Obligations.RunOfOneIncrement : Prop :=
  ∀ (n : Reg) (b : Int) (s : State), 1 ≤ b → b ≤ 16 → s.host.resetDone = true → s.status = .running →
    s.opcode = 0x1#4 ++ n → ∃ t, runCall b s = .returned (16 - b) t ∧ t.clk = 16 ∧
      t.reg n = s.fetchOpcode.reg n + 1 ∧ RegsKeptBut [n, s.p] s t ∧ MemKept s t ∧ KeptBut [.clk, .host] s t ∧
      t.host = { s.host with phase := .returned }

/-- Stepping the machine after the host's `Run(b)` move, whether it is the first `Run` call or a later one, reaches the
state and the reported end that `runCall` gives, when no other move is scheduled (R116, R121); and it stays there, since
between the return of one call and the entry of the next an engine turn changes nothing (R56, log 8). -/
def Obligations.SteppingRefinesRunCall : Prop :=
  (∀ (b : Int) (s : State), s.host.schedule = [] → s.host.resetDone = true → (∀ c, s.host.phase ≠ .running c) →
    ∃ k, ∀ j, Host.Core.run Sys2Proof.core (k + j) { s with host := { s.host with schedule := [.run b] } } =
      (runCall b s).observed) ∧
  ∀ s : State, s.host.schedule = [] → s.host.phase = .returned → step s = .next s

/-- The invariant holds right after reset. -/
def Obligations.InvariantHoldsAtReset : Prop := Inv State.reset

/-- Every step keeps the invariant: the memory's canonical form, a silent channel's `count` at 0 (R52), the sample
count's range (R51), `clk` a multiple of 8 and bounded inside `Run` (R118), and 0x68 the only illegal opcode (R301). -/
def Obligations.StepKeepsInvariant : Prop := ∀ s t : State, Inv s → step s = .next t → Inv t

/-! ### The tone generator (48_tone_generator.md) -/

/-- The host's `Mute` zeroes every field of every channel and leaves `stage`, `rng` and the counters (R253; log 23). -/
def Obligations.MuteZeroesChannels : Prop :=
  ∀ (s : State) (ms : List Move), s.host.schedule = .mute :: ms → ∃ t, step s = .next t ∧
    (∀ c, t.tone.chan c = { count := 0, delta := 0, volumeLeft := 0, volumeRight := 0, waveType := 0 }) ∧
    t.tone.stage = s.tone.stage ∧ t.tone.rng = s.tone.rng ∧ t.tone.clipCount = s.tone.clipCount ∧
    t.tone.sampleCount = s.tone.sampleCount ∧ t.events = s.events

/-- What a write of register `reg` of channel `c` does to each channel and to the staging latch (R254 to R262). The
register numbers are the spec's decision (log 22), and so is the one latch with its tag (log 5): `low` and `left` are
the latched byte when the tag matches and otherwise the draw, a free value. -/
def Obligations.RegisterWritesReachTheirChannel : Prop :=
  ∀ (s : State) (ms : List Move) (c : Chan) (reg : BitVec 3) (data : Byte),
    s.host.schedule = .setRegister (c ++ reg) data :: ms →
    ∃ t low left, step s = .next t ∧
      (s.tone.stage.tag = some (c, .deltaLow) → low = s.tone.stage.value) ∧
      (s.tone.stage.tag = some (c, .volLeft) → left = s.tone.stage.value) ∧
      (∀ k, k ≠ c → t.tone.chan k = s.tone.chan k) ∧
      t.tone.chan c = (match reg.toNat with
        | 1 => { s.tone.chan c with delta := data ++ low }
        | 3 => { s.tone.chan c with
            volumeLeft := left, volumeRight := data
            count := if left = 0 ∧ data = 0 then 0 else (s.tone.chan c).count }
        | 4 => { s.tone.chan c with waveType := BitVec.ofNat 3 data.toNat }
        | _ => s.tone.chan c) ∧
      t.tone.stage = (match reg.toNat with
        | 0 => { value := data, tag := some (c, .deltaLow) }
        | 2 => { value := data, tag := some (c, .volLeft) }
        | _ => s.tone.stage) ∧
      t.tone.rng = s.tone.rng ∧ t.tone.clipCount = s.tone.clipCount ∧ t.tone.sampleCount = s.tone.sampleCount

/-- The write protocol (R256, R339): a delta-low staging write, then any number of samples, then the delta-high commit
to the same channel gives `delta = high || low`, whatever the draws (logs 5, 22). -/
def Obligations.StagedDeltaCommits : Prop :=
  ∀ (s : State) (c : Chan) (low high : Byte) (samples : Nat) (ms : List Move),
    s.host.schedule =
      .setRegister (c ++ 0#3) low ::
        (List.replicate samples .produceSample ++ .setRegister (c ++ 1#3) high :: ms) →
    ∃ t, Host.Core.run Sys2Proof.core (samples + 2) s = .next t ∧ (t.tone.chan c).delta = high ++ low ∧
      t.host.schedule = ms

/-- What one channel does in a sample, and the order of the channels (R263 to R266, R276, R278). A silent channel is
skipped entirely: its `count` and the shared `rng` are not advanced and it adds nothing to the sums. A channel with a
volume not 0 is processed in full: a tonal one advances by `delta` and adds its waveform times each volume, `rng` as it
was; a noise one (the test of `delta` is the spec's decision, log 42) advances `rng` instead and adds the noise level of
the new value times each volume; so a side whose volume is 0 gets 0. One sample puts the channels together in ascending
order, each with its phase advanced first. Signed product and order: the spec's decisions (log 24); noise: log 10. -/
def Obligations.SilentChannelIsSkipped : Prop :=
  (∀ (P : ToneParams) (m : Mix) (c : Channel),
    (c.volumeLeft = 0 → c.volumeRight = 0 → c.advance = c ∧ Mix.channel P m c = m) ∧
    (¬(c.volumeLeft = 0 ∧ c.volumeRight = 0) →
      (c.delta.toNat < 0xFF00 → c.advance = { c with count := c.count + c.delta } ∧
        Mix.channel P m c =
          { rng := m.rng
            left := m.left + wave P c.waveType c.count * c.volumeLeft.toNat
            right := m.right + wave P c.waveType c.count * c.volumeRight.toNat }) ∧
      (0xFF00 ≤ c.delta.toNat → c.advance = c ∧
        Mix.channel P m c =
          { rng := noiseAdvance P m.rng
            left := m.left + noiseLevel (noiseAdvance P m.rng) * c.volumeLeft.toNat
            right := m.right + noiseLevel (noiseAdvance P m.rng) * c.volumeRight.toNat }) ∧
      (c.volumeLeft = 0 → (Mix.channel P m c).left = m.left) ∧
      (c.volumeRight = 0 → (Mix.channel P m c).right = m.right))) ∧
  ∀ (P : ToneParams) (g : Tone),
    g.mix P = (List.range 32).foldl (fun m k => Mix.channel P m (g.chan (BitVec.ofNat 5 k)).advance)
      { rng := g.rng, left := 0, right := 0 }

/-- When every channel is silent a sample is `(0, 0)`, no channel and no `rng` changes, and nothing clips (R253, R263,
R264). -/
def Obligations.SilentGeneratorGivesZero : Prop :=
  ∀ (P : ToneParams) (g : Tone), (∀ c, (g.chan c).silent = true) →
    (g.produceSample P).left = 0 ∧ (g.produceSample P).right = 0 ∧
    (∀ c, (g.produceSample P).tone.chan c = g.chan c) ∧ (g.produceSample P).tone.rng = g.rng ∧
    (g.mixed P).clipCount = g.clipCount

/-- A noise-mode channel's phase never advances and its contribution depends on no waveform: it is the same for every
choice of the waveform functions and of `waveType` (R265; the test of `delta` is log 42). -/
def Obligations.NoiseNeverUsesWaveforms : Prop :=
  ∀ (P Q : ToneParams) (m : Mix) (c : Channel) (ty : BitVec 3),
    0xFF00 ≤ c.delta.toNat → P.tapA = Q.tapA → P.tapB = Q.tapB →
    c.advance = c ∧ Mix.channel P m { c with waveType := ty } = Mix.channel Q m c

/-- For every type and in noise mode (R275) `-0x4000 <= t <= 0x4000`, with the spec's default parameters (log 10). -/
def Obligations.WaveformRange : Prop :=
  (∀ (ty : BitVec 3) (count : Word),
    -0x4000 ≤ wave ToneParams.default ty count ∧ wave ToneParams.default ty count ≤ 0x4000) ∧
  ∀ rng : BitVec 17, -0x4000 ≤ noiseLevel rng ∧ noiseLevel rng ≤ 0x4000

/-- The eight waveforms of R267 to R274 in plain arithmetic on `count`, with the spec's default parameters for types 2,
3, 4 and 6 and its reading of types 5 and 7 (logs 10, 25); and the noise step of R276: `rng` is halved and the exclusive
or of the two tapped bits of the old value, bits 1 and 2 by default, enters bit 16; the noise is `+0x2000` when the new
value is odd and `-0x2000` when it is even (log 10). -/
def Obligations.WaveformsInArithmetic : Prop :=
  (∀ count : Word,
    let n : Int := count.toNat
    let f : Int := 2 * (n % 0x4000)
    let ramp : Int := if 0x4000 ≤ f then 0x7FFF - f else f
    let pulse (b : Bool) : Int := if b then 0x2000 else -0x2000
    wave ToneParams.default 0 count = pulse (decide (0x8000 ≤ n)) ∧
    wave ToneParams.default 1 count = pulse (decide (0xC000 ≤ n)) ∧
    wave ToneParams.default 2 count = pulse (decide (0xE000 ≤ n)) ∧
    wave ToneParams.default 3 count = pulse (decide (0xC000 ≤ n)) ∧
    wave ToneParams.default 4 count = (if 0x8000 ≤ n then -ramp else ramp) ∧
    wave ToneParams.default 5 count = (32767 - n) / 2 ∧
    wave ToneParams.default 6 count = (if 0x8000 ≤ n then ramp else -ramp) ∧
    wave ToneParams.default 7 count = (n - 32767) / 2) ∧
  (∀ (P : ToneParams) (rng : BitVec 17),
    (noiseAdvance P rng).toNat =
      rng.toNat / 2 + if rng.getLsbD P.tapA = rng.getLsbD P.tapB then 0 else 0x10000) ∧
  ∀ rng : BitVec 17,
    (noiseAdvance ToneParams.default rng).toNat =
      rng.toNat / 2 + 0x10000 * ((rng.toNat / 2 % 2 + rng.toNat / 4 % 2) % 2) ∧
    noiseLevel rng = if rng.toNat % 2 = 1 then 0x2000 else -0x2000

/-- For all parameters whose ramps stay within `0x4000`, the sums stay within 133,693,440, so a 32-bit signed
accumulator never overflows (R278; logs 10, 24). -/
def Obligations.MixerSumsAreBounded : Prop :=
  ∀ (P : ToneParams) (g : Tone), (∀ w, |P.wave4 w| ≤ 0x4000) → (∀ w, |P.wave6 w| ≤ 0x4000) →
    |(g.mix P).left| ≤ 133693440 ∧ |(g.mix P).right| ≤ 133693440

/-- One sample: each value is its attenuated sum, or the nearest end of the signed 16-bit range when the sum is outside
it, and each value clamped adds 1 to the clip count (R251, R279, R280; log 24). Every channel's phase has advanced,
`rng` is as the mix leaves it, and the staging latch is as before (R256, R263). At the 48000th sample the clip count is
reported if it is not 0, and then both counters start again (R281, R282; log 23). Everything outside the generator is
as before (R284), the schedule being one move shorter. -/
def Obligations.SampleIsClampedAndCounted : Prop :=
  ∀ (s : State) (ms : List Move), s.host.schedule = .produceSample :: ms →
    ∃ t l r n, step s = .next t ∧
      (let sumL := (s.tone.mix ToneParams.default).left / 512
       let sumR := (s.tone.mix ToneParams.default).right / 512
       (-32768 ≤ sumL → sumL ≤ 32767 → l = sumL) ∧ (32767 < sumL → l = 32767) ∧ (sumL < -32768 → l = -32768) ∧
       (-32768 ≤ sumR → sumR ≤ 32767 → r = sumR) ∧ (32767 < sumR → r = 32767) ∧ (sumR < -32768 → r = -32768) ∧
       n = s.tone.clipCount + (if l = sumL then 0 else 1) + (if r = sumR then 0 else 1)) ∧
      (∀ k, t.tone.chan k = (s.tone.chan k).advance) ∧
      t.tone.rng = (s.tone.mix ToneParams.default).rng ∧ t.tone.stage = s.tone.stage ∧
      RegsKeptBut [] s t ∧ MemKept s t ∧ KeptBut [.tone, .host] s t ∧ t.host = { s.host with schedule := ms } ∧
      (s.tone.sampleCount ≠ 47999 → t.events = .sample l r :: s.events ∧
        t.tone.sampleCount = s.tone.sampleCount + 1 ∧ t.tone.clipCount = n) ∧
      (s.tone.sampleCount = 47999 → t.tone.sampleCount = 0 ∧ t.tone.clipCount = 0 ∧
        t.events = if n = 0 then .sample l r :: s.events else .sample l r :: .clipReport n :: s.events)

/-- An active tonal channel's phase after `k` samples is its start plus `k * delta` mod 2^16, so that with
`delta = 0x0100` the channel is back where it was after 256 samples (R266, R283). -/
def Obligations.TonalPhaseIsLinear : Prop :=
  ∀ (c : Channel) (k : Nat), c.silent = false → c.delta.toNat < 0xFF00 →
    ((Channel.advance^[k]) c).count.toNat = (c.count.toNat + k * c.delta.toNat) % 65536 ∧
    (c.delta = 0x0100 → (Channel.advance^[256]) c = c)
end

