-- ==== Sys2Proof/Laws/Decode.lean ====
section
/-! SUPPORT. The fields of an opcode byte written from its parts, for proofs about `decodeBytes` and `encode`. -/

namespace Sys2Proof

@[simp] theorem opHi_append (h n : Reg) : opHi (h ++ n) = h := by
  revert h n; decide

@[simp] theorem opLo_append (h n : Reg) : opLo (h ++ n) = n := by
  revert h n; decide

theorem opHi_opLo_append (op : Byte) : opHi op ++ opLo op = op := by
  revert op; decide

@[simp] theorem opHi_out (p : Port) : opHi (0b01100#5 ++ p) = 6#4 := by
  revert p; decide

@[simp] theorem opHi_inp (p : Port) : opHi (0b01101#5 ++ p) = 6#4 := by
  revert p; decide

theorem decodeIo_out (p : Port) (h : p ≠ 0) : decodeIo (0b01100#5 ++ p) = .out p := by
  revert p; decide

theorem decodeIo_inp (p : Port) (h : p ≠ 0) : decodeIo (0b01101#5 ++ p) = .inp p := by
  revert p; decide

/-- A port opcode is well-formed by construction: port 0 is another encoding (R95). -/
theorem decodeIo_wellFormed (op : Byte) : (decodeIo op).wellFormed = true := by
  revert op; decide

end Sys2Proof
end

