-- ==== Sys2Proof/Laws/Flags.lean ====
section
/-! SUPPORT. The exact-integer laws of the two arithmetic functions (44_arithmetic.md R171) and of the packed bytes. -/

namespace Sys2Proof.Machine

open Sys2Proof

/-- `D' + 256 * DF' = a + b + cin` exactly (R171 law 2). -/
theorem addC_exact (a b : Byte) (c : Bool) :
    (addC a b c).d.toNat + 256 * (addC a b c).df.toNat = a.toNat + b.toNat + c.toNat := by
  have ha := a.isLt
  have hb := b.isLt
  cases c <;>
    simp only [addC, bit9, BitVec.extractLsb'_toNat, BitVec.toNat_add, BitVec.toNat_setWidth, BitVec.getLsbD,
      Nat.testBit_eq_decide_div_mod_eq, BitVec.toNat_ofBool, Bool.toNat, cond_true, cond_false, Bool.cond_decide,
      Nat.shiftRight_zero] <;>
    (split <;> omega)

/-- `D' - 256 * (1 - DF') = m - s - bin` exactly (R171 law 3). -/
theorem subB_exact (m s : Byte) (b : Bool) :
    ((subB m s b).d.toNat : Int) - 256 * (1 - ((subB m s b).df.toNat : Int)) = m.toNat - s.toNat - b.toNat := by
  have hm := m.isLt
  have hs := s.isLt
  cases b <;>
    simp only [subB, bit9, BitVec.extractLsb'_toNat, BitVec.toNat_sub, BitVec.toNat_setWidth, BitVec.getLsbD,
      Nat.testBit_eq_decide_div_mod_eq, BitVec.toNat_ofBool, Bool.toNat, cond_true, cond_false, ← decide_not,
      Bool.cond_decide, Nat.shiftRight_zero] <;>
    (split <;> omega)

@[simp] theorem packHi_pack (a b : Reg) : packHi (pack a b) = a := by
  revert a b; decide

@[simp] theorem packLo_pack (a b : Reg) : packLo (pack a b) = b := by
  revert a b; decide

@[simp] theorem hi_join (h l : Byte) : hi (join h l) = h := by
  apply BitVec.eq_of_toNat_eq
  have := l.isLt
  have := h.isLt
  simp only [hi, join, BitVec.extractLsb'_toNat, BitVec.toNat_append, Nat.shiftLeft_eq, Nat.shiftRight_eq_div_pow]
  rw [← Nat.shiftLeft_eq, ← Nat.shiftLeft_add_eq_or_of_lt l.isLt, Nat.shiftLeft_eq]
  omega

@[simp] theorem lo_join (h l : Byte) : lo (join h l) = l := by
  apply BitVec.eq_of_toNat_eq
  have := l.isLt
  simp only [lo, join, BitVec.extractLsb'_toNat, BitVec.toNat_append, Nat.shiftRight_zero]
  rw [← Nat.shiftLeft_add_eq_or_of_lt l.isLt, Nat.shiftLeft_eq]
  omega

@[simp] theorem join_hi_lo (v : Word) : join (hi v) (lo v) = v := by
  apply BitVec.eq_of_toNat_eq
  have := v.isLt
  have hl := (lo v).isLt
  simp only [join, BitVec.toNat_append]
  rw [← Nat.shiftLeft_add_eq_or_of_lt hl, Nat.shiftLeft_eq]
  simp only [hi, lo, BitVec.extractLsb'_toNat, Nat.shiftRight_eq_div_pow]
  omega

end Sys2Proof.Machine
end

