-- ==== Sys2Proof/Laws/Memory.lean ====
section
/-! SUPPORT. The laws of memory: a read after a write, and that a write keeps the canonical form. -/

namespace Sys2Proof.Machine

open Sys2Proof

theorem Memory.lookup_write (m : Memory) (a : Nat) (v : Byte) (b : Nat) :
    Memory.lookup (Memory.write m a v) b = if a = b then some v else Memory.lookup m b := by
  induction m with
  | nil => simp [Memory.write, Memory.lookup]
  | cons c m ih =>
    obtain ⟨k, w⟩ := c
    simp only [Memory.write]
    by_cases hlt : a < k
    · simp [hlt, Memory.lookup]
    · by_cases heq : a = k
      · subst heq
        simp only [lt_irrefl, if_false, if_true, Memory.lookup]
        split <;> rfl
      · simp only [hlt, heq, if_false, Memory.lookup, ih]
        by_cases hab : a = b
        · subst hab
          simp [Ne.symm heq]
        · simp [hab]

/-- A read after a write: the written byte in its own cell, every other cell as before (R61, R63). -/
theorem Memory.read_write (m : Memory) (a : Nat) (v : Byte) (b : Nat) :
    Memory.read (Memory.write m a v) b = if a = b then v else Memory.read m b := by
  simp only [Memory.read, Memory.lookup_write]
  split <;> rfl

theorem Memory.above_write (m : Memory) (a k : Nat) (v : Byte) (hk : k < a) (h : Memory.above k m = true) :
    Memory.above k (Memory.write m a v) = true := by
  induction m with
  | nil => simp [Memory.write, Memory.above, hk]
  | cons c m ih =>
    obtain ⟨j, w⟩ := c
    simp only [Memory.above, Bool.and_eq_true, decide_eq_true_eq] at h
    simp only [Memory.write]
    by_cases hlt : a < j
    · simp [hlt, Memory.above, hk, h.1, h.2]
    · by_cases heq : a = j
      · subst heq
        simp [Memory.above, hk, h.2]
      · simp [hlt, heq, Memory.above, h.1, ih h.2]

theorem Memory.above_trans (m : Memory) (a k : Nat) (hak : a < k) (h : Memory.above k m = true) :
    Memory.above a m = true := by
  induction m with
  | nil => rfl
  | cons c m ih =>
    simp only [Memory.above, Bool.and_eq_true, decide_eq_true_eq] at h ⊢
    exact ⟨hak.trans h.1, ih h.2⟩

/-- Every write inside the 65536 cells keeps the canonical form. -/
theorem Memory.wf_write (m : Memory) (a : Nat) (v : Byte) (ha : a < 65536) (h : Memory.wf m = true) :
    Memory.wf (Memory.write m a v) = true := by
  induction m with
  | nil => simp [Memory.write, Memory.wf, Memory.above, ha]
  | cons c m ih =>
    obtain ⟨k, w⟩ := c
    simp only [Memory.wf, Bool.and_eq_true, decide_eq_true_eq] at h
    obtain ⟨⟨hk, hab⟩, hm⟩ := h
    simp only [Memory.write]
    by_cases hlt : a < k
    · simp [hlt, Memory.wf, Memory.above, ha, hk, hab, hm, Memory.above_trans m a k hlt hab]
    · by_cases heq : a = k
      · subst heq
        simp [Memory.wf, ha, hab, hm]
      · have hka : k < a := by omega
        simp [hlt, heq, Memory.wf, hk, ih hm, Memory.above_write m a k v hka hab]

/-- Two memories in canonical form with the same listed bytes are the same data. -/
theorem Memory.lookup_above (m : Memory) (k : Nat) (h : Memory.above k m = true) : Memory.lookup m k = none := by
  induction m with
  | nil => rfl
  | cons c m ih =>
    obtain ⟨j, w⟩ := c
    simp only [Memory.above, Bool.and_eq_true, decide_eq_true_eq] at h
    have hne : j ≠ k := by omega
    simp [Memory.lookup, hne, ih h.2]

theorem Memory.lookup_some_not_below (m : Memory) (k j : Nat) (h : Memory.above k m = true) (hj : j ≤ k) :
    Memory.lookup m j = none := by
  rcases Nat.lt_or_eq_of_le hj with hlt | rfl
  · exact Memory.lookup_above m j (Memory.above_trans m j k hlt h)
  · exact Memory.lookup_above m j h

/-- Canonical: two memories in canonical form that list the same bytes are equal data. -/
theorem Memory.ext_of_wf (m m' : Memory) (h : Memory.wf m = true) (h' : Memory.wf m' = true)
    (hl : ∀ a, Memory.lookup m a = Memory.lookup m' a) : m = m' := by
  induction m generalizing m' with
  | nil =>
    cases m' with
    | nil => rfl
    | cons c m' =>
      obtain ⟨k, w⟩ := c
      have := hl k
      simp [Memory.lookup] at this
  | cons c m ih =>
    obtain ⟨k, w⟩ := c
    cases m' with
    | nil =>
      have := hl k
      simp [Memory.lookup] at this
    | cons c' m' =>
      obtain ⟨k', w'⟩ := c'
      simp only [Memory.wf, Bool.and_eq_true, decide_eq_true_eq] at h h'
      have hkk : k = k' := by
        rcases Nat.lt_trichotomy k k' with hlt | heq | hgt
        · have e := hl k
          rw [Memory.lookup, Memory.lookup, if_pos rfl, if_neg (by omega),
            Memory.lookup_some_not_below m' k' k h'.1.2 hlt.le] at e
          cases e
        · exact heq
        · have e := hl k'
          rw [Memory.lookup, Memory.lookup, if_pos rfl, if_neg (by omega),
            Memory.lookup_some_not_below m k k' h.1.2 hgt.le] at e
          cases e
      subst hkk
      have hw : w = w' := by
        have e := hl k
        simpa [Memory.lookup] using e
      subst hw
      rw [ih m' h.2 h'.2 (fun a => ?_)]
      by_cases hak : k = a
      · subst hak
        rw [Memory.lookup_above m k h.1.2, Memory.lookup_above m' k h'.1.2]
      · have e := hl a
        simpa [Memory.lookup, hak] using e

/-- The host's write and the store inside `MemWrite` keep the canonical form. -/
theorem State.poke_wf (s : State) (a : Word) (v : Byte) (h : Memory.wf s.mem = true) :
    Memory.wf (s.poke a v).mem = true :=
  Memory.wf_write s.mem a.toNat v a.isLt h

theorem State.writeCell_wf (s : State) (a : Word) (v : Byte) (h : Memory.wf s.mem = true) :
    Memory.wf (s.writeCell a v).mem = true :=
  State.poke_wf s a v h

theorem reset_mem_wf : Memory.wf State.reset.mem = true := rfl

/-- A read after a store, by 16-bit address. -/
@[simp] theorem State.byteAt_poke (s : State) (a : Word) (v : Byte) (b : Word) :
    (s.poke a v).byteAt b = if b = a then v else s.byteAt b := by
  simp only [State.byteAt, State.poke, Memory.read_write]
  by_cases h : b = a
  · simp [h]
  · have hne : ¬ a.toNat = b.toNat := fun e => h (BitVec.eq_of_toNat_eq e.symm)
    simp [h, hne]

end Sys2Proof.Machine
end

