-- ==== Sys2Proof/Laws/State.lean ====
section
/-! SUPPORT. One lemma per field per update of State (Machine/Ops.lean), so that no later proof unfolds a record
update; and the equations of the composite operations over those updates. -/

namespace Sys2Proof.Machine

open Sys2Proof

@[simp] theorem State.setReg_r (s : State) (n : Reg) (v : Word) : (s.setReg n v).r = s.r.set n.toFin v := rfl
@[simp] theorem State.setReg_d (s : State) (n : Reg) (v : Word) : (s.setReg n v).d = s.d := rfl
@[simp] theorem State.setReg_df (s : State) (n : Reg) (v : Word) : (s.setReg n v).df = s.df := rfl
@[simp] theorem State.setReg_x (s : State) (n : Reg) (v : Word) : (s.setReg n v).x = s.x := rfl
@[simp] theorem State.setReg_p (s : State) (n : Reg) (v : Word) : (s.setReg n v).p = s.p := rfl
@[simp] theorem State.setReg_q (s : State) (n : Reg) (v : Word) : (s.setReg n v).q = s.q := rfl
@[simp] theorem State.setReg_t (s : State) (n : Reg) (v : Word) : (s.setReg n v).t = s.t := rfl
@[simp] theorem State.setReg_ie (s : State) (n : Reg) (v : Word) : (s.setReg n v).ie = s.ie := rfl
@[simp] theorem State.setReg_status (s : State) (n : Reg) (v : Word) : (s.setReg n v).status = s.status := rfl
@[simp] theorem State.setReg_clk (s : State) (n : Reg) (v : Word) : (s.setReg n v).clk = s.clk := rfl
@[simp] theorem State.setReg_mem (s : State) (n : Reg) (v : Word) : (s.setReg n v).mem = s.mem := rfl
@[simp] theorem State.setReg_tone (s : State) (n : Reg) (v : Word) : (s.setReg n v).tone = s.tone := rfl
@[simp] theorem State.setReg_events (s : State) (n : Reg) (v : Word) : (s.setReg n v).events = s.events := rfl
@[simp] theorem State.setReg_env (s : State) (n : Reg) (v : Word) : (s.setReg n v).env = s.env := rfl
@[simp] theorem State.setReg_host (s : State) (n : Reg) (v : Word) : (s.setReg n v).host = s.host := rfl

@[simp] theorem State.setD_r (s : State) (v : Byte) : (s.setD v).r = s.r := rfl
@[simp] theorem State.setD_d (s : State) (v : Byte) : (s.setD v).d = v := rfl
@[simp] theorem State.setD_df (s : State) (v : Byte) : (s.setD v).df = s.df := rfl
@[simp] theorem State.setD_x (s : State) (v : Byte) : (s.setD v).x = s.x := rfl
@[simp] theorem State.setD_p (s : State) (v : Byte) : (s.setD v).p = s.p := rfl
@[simp] theorem State.setD_q (s : State) (v : Byte) : (s.setD v).q = s.q := rfl
@[simp] theorem State.setD_t (s : State) (v : Byte) : (s.setD v).t = s.t := rfl
@[simp] theorem State.setD_ie (s : State) (v : Byte) : (s.setD v).ie = s.ie := rfl
@[simp] theorem State.setD_status (s : State) (v : Byte) : (s.setD v).status = s.status := rfl
@[simp] theorem State.setD_clk (s : State) (v : Byte) : (s.setD v).clk = s.clk := rfl
@[simp] theorem State.setD_mem (s : State) (v : Byte) : (s.setD v).mem = s.mem := rfl
@[simp] theorem State.setD_tone (s : State) (v : Byte) : (s.setD v).tone = s.tone := rfl
@[simp] theorem State.setD_events (s : State) (v : Byte) : (s.setD v).events = s.events := rfl
@[simp] theorem State.setD_env (s : State) (v : Byte) : (s.setD v).env = s.env := rfl
@[simp] theorem State.setD_host (s : State) (v : Byte) : (s.setD v).host = s.host := rfl

@[simp] theorem State.setDDF_r (s : State) (v : Byte) (f : Bool) : (s.setDDF v f).r = s.r := rfl
@[simp] theorem State.setDDF_d (s : State) (v : Byte) (f : Bool) : (s.setDDF v f).d = v := rfl
@[simp] theorem State.setDDF_df (s : State) (v : Byte) (f : Bool) : (s.setDDF v f).df = f := rfl
@[simp] theorem State.setDDF_x (s : State) (v : Byte) (f : Bool) : (s.setDDF v f).x = s.x := rfl
@[simp] theorem State.setDDF_p (s : State) (v : Byte) (f : Bool) : (s.setDDF v f).p = s.p := rfl
@[simp] theorem State.setDDF_q (s : State) (v : Byte) (f : Bool) : (s.setDDF v f).q = s.q := rfl
@[simp] theorem State.setDDF_t (s : State) (v : Byte) (f : Bool) : (s.setDDF v f).t = s.t := rfl
@[simp] theorem State.setDDF_ie (s : State) (v : Byte) (f : Bool) : (s.setDDF v f).ie = s.ie := rfl
@[simp] theorem State.setDDF_status (s : State) (v : Byte) (f : Bool) : (s.setDDF v f).status = s.status := rfl
@[simp] theorem State.setDDF_clk (s : State) (v : Byte) (f : Bool) : (s.setDDF v f).clk = s.clk := rfl
@[simp] theorem State.setDDF_mem (s : State) (v : Byte) (f : Bool) : (s.setDDF v f).mem = s.mem := rfl
@[simp] theorem State.setDDF_tone (s : State) (v : Byte) (f : Bool) : (s.setDDF v f).tone = s.tone := rfl
@[simp] theorem State.setDDF_events (s : State) (v : Byte) (f : Bool) : (s.setDDF v f).events = s.events := rfl
@[simp] theorem State.setDDF_env (s : State) (v : Byte) (f : Bool) : (s.setDDF v f).env = s.env := rfl
@[simp] theorem State.setDDF_host (s : State) (v : Byte) (f : Bool) : (s.setDDF v f).host = s.host := rfl

@[simp] theorem State.setX_r (s : State) (n : Reg) : (s.setX n).r = s.r := rfl
@[simp] theorem State.setX_d (s : State) (n : Reg) : (s.setX n).d = s.d := rfl
@[simp] theorem State.setX_df (s : State) (n : Reg) : (s.setX n).df = s.df := rfl
@[simp] theorem State.setX_x (s : State) (n : Reg) : (s.setX n).x = n := rfl
@[simp] theorem State.setX_p (s : State) (n : Reg) : (s.setX n).p = s.p := rfl
@[simp] theorem State.setX_q (s : State) (n : Reg) : (s.setX n).q = s.q := rfl
@[simp] theorem State.setX_t (s : State) (n : Reg) : (s.setX n).t = s.t := rfl
@[simp] theorem State.setX_ie (s : State) (n : Reg) : (s.setX n).ie = s.ie := rfl
@[simp] theorem State.setX_status (s : State) (n : Reg) : (s.setX n).status = s.status := rfl
@[simp] theorem State.setX_clk (s : State) (n : Reg) : (s.setX n).clk = s.clk := rfl
@[simp] theorem State.setX_mem (s : State) (n : Reg) : (s.setX n).mem = s.mem := rfl
@[simp] theorem State.setX_tone (s : State) (n : Reg) : (s.setX n).tone = s.tone := rfl
@[simp] theorem State.setX_events (s : State) (n : Reg) : (s.setX n).events = s.events := rfl
@[simp] theorem State.setX_env (s : State) (n : Reg) : (s.setX n).env = s.env := rfl
@[simp] theorem State.setX_host (s : State) (n : Reg) : (s.setX n).host = s.host := rfl

@[simp] theorem State.setP_r (s : State) (n : Reg) : (s.setP n).r = s.r := rfl
@[simp] theorem State.setP_d (s : State) (n : Reg) : (s.setP n).d = s.d := rfl
@[simp] theorem State.setP_df (s : State) (n : Reg) : (s.setP n).df = s.df := rfl
@[simp] theorem State.setP_x (s : State) (n : Reg) : (s.setP n).x = s.x := rfl
@[simp] theorem State.setP_p (s : State) (n : Reg) : (s.setP n).p = n := rfl
@[simp] theorem State.setP_q (s : State) (n : Reg) : (s.setP n).q = s.q := rfl
@[simp] theorem State.setP_t (s : State) (n : Reg) : (s.setP n).t = s.t := rfl
@[simp] theorem State.setP_ie (s : State) (n : Reg) : (s.setP n).ie = s.ie := rfl
@[simp] theorem State.setP_status (s : State) (n : Reg) : (s.setP n).status = s.status := rfl
@[simp] theorem State.setP_clk (s : State) (n : Reg) : (s.setP n).clk = s.clk := rfl
@[simp] theorem State.setP_mem (s : State) (n : Reg) : (s.setP n).mem = s.mem := rfl
@[simp] theorem State.setP_tone (s : State) (n : Reg) : (s.setP n).tone = s.tone := rfl
@[simp] theorem State.setP_events (s : State) (n : Reg) : (s.setP n).events = s.events := rfl
@[simp] theorem State.setP_env (s : State) (n : Reg) : (s.setP n).env = s.env := rfl
@[simp] theorem State.setP_host (s : State) (n : Reg) : (s.setP n).host = s.host := rfl

@[simp] theorem State.setT_r (s : State) (v : Byte) : (s.setT v).r = s.r := rfl
@[simp] theorem State.setT_d (s : State) (v : Byte) : (s.setT v).d = s.d := rfl
@[simp] theorem State.setT_df (s : State) (v : Byte) : (s.setT v).df = s.df := rfl
@[simp] theorem State.setT_x (s : State) (v : Byte) : (s.setT v).x = s.x := rfl
@[simp] theorem State.setT_p (s : State) (v : Byte) : (s.setT v).p = s.p := rfl
@[simp] theorem State.setT_q (s : State) (v : Byte) : (s.setT v).q = s.q := rfl
@[simp] theorem State.setT_t (s : State) (v : Byte) : (s.setT v).t = v := rfl
@[simp] theorem State.setT_ie (s : State) (v : Byte) : (s.setT v).ie = s.ie := rfl
@[simp] theorem State.setT_status (s : State) (v : Byte) : (s.setT v).status = s.status := rfl
@[simp] theorem State.setT_clk (s : State) (v : Byte) : (s.setT v).clk = s.clk := rfl
@[simp] theorem State.setT_mem (s : State) (v : Byte) : (s.setT v).mem = s.mem := rfl
@[simp] theorem State.setT_tone (s : State) (v : Byte) : (s.setT v).tone = s.tone := rfl
@[simp] theorem State.setT_events (s : State) (v : Byte) : (s.setT v).events = s.events := rfl
@[simp] theorem State.setT_env (s : State) (v : Byte) : (s.setT v).env = s.env := rfl
@[simp] theorem State.setT_host (s : State) (v : Byte) : (s.setT v).host = s.host := rfl

@[simp] theorem State.setIE_r (s : State) (b : Bool) : (s.setIE b).r = s.r := rfl
@[simp] theorem State.setIE_d (s : State) (b : Bool) : (s.setIE b).d = s.d := rfl
@[simp] theorem State.setIE_df (s : State) (b : Bool) : (s.setIE b).df = s.df := rfl
@[simp] theorem State.setIE_x (s : State) (b : Bool) : (s.setIE b).x = s.x := rfl
@[simp] theorem State.setIE_p (s : State) (b : Bool) : (s.setIE b).p = s.p := rfl
@[simp] theorem State.setIE_q (s : State) (b : Bool) : (s.setIE b).q = s.q := rfl
@[simp] theorem State.setIE_t (s : State) (b : Bool) : (s.setIE b).t = s.t := rfl
@[simp] theorem State.setIE_ie (s : State) (b : Bool) : (s.setIE b).ie = b := rfl
@[simp] theorem State.setIE_status (s : State) (b : Bool) : (s.setIE b).status = s.status := rfl
@[simp] theorem State.setIE_clk (s : State) (b : Bool) : (s.setIE b).clk = s.clk := rfl
@[simp] theorem State.setIE_mem (s : State) (b : Bool) : (s.setIE b).mem = s.mem := rfl
@[simp] theorem State.setIE_tone (s : State) (b : Bool) : (s.setIE b).tone = s.tone := rfl
@[simp] theorem State.setIE_events (s : State) (b : Bool) : (s.setIE b).events = s.events := rfl
@[simp] theorem State.setIE_env (s : State) (b : Bool) : (s.setIE b).env = s.env := rfl
@[simp] theorem State.setIE_host (s : State) (b : Bool) : (s.setIE b).host = s.host := rfl

@[simp] theorem State.emit_r (s : State) (e : Event) : (s.emit e).r = s.r := rfl
@[simp] theorem State.emit_d (s : State) (e : Event) : (s.emit e).d = s.d := rfl
@[simp] theorem State.emit_df (s : State) (e : Event) : (s.emit e).df = s.df := rfl
@[simp] theorem State.emit_x (s : State) (e : Event) : (s.emit e).x = s.x := rfl
@[simp] theorem State.emit_p (s : State) (e : Event) : (s.emit e).p = s.p := rfl
@[simp] theorem State.emit_q (s : State) (e : Event) : (s.emit e).q = s.q := rfl
@[simp] theorem State.emit_t (s : State) (e : Event) : (s.emit e).t = s.t := rfl
@[simp] theorem State.emit_ie (s : State) (e : Event) : (s.emit e).ie = s.ie := rfl
@[simp] theorem State.emit_status (s : State) (e : Event) : (s.emit e).status = s.status := rfl
@[simp] theorem State.emit_clk (s : State) (e : Event) : (s.emit e).clk = s.clk := rfl
@[simp] theorem State.emit_mem (s : State) (e : Event) : (s.emit e).mem = s.mem := rfl
@[simp] theorem State.emit_tone (s : State) (e : Event) : (s.emit e).tone = s.tone := rfl
@[simp] theorem State.emit_events (s : State) (e : Event) : (s.emit e).events = e :: s.events := rfl
@[simp] theorem State.emit_env (s : State) (e : Event) : (s.emit e).env = s.env := rfl
@[simp] theorem State.emit_host (s : State) (e : Event) : (s.emit e).host = s.host := rfl

@[simp] theorem State.poke_r (s : State) (a : Word) (v : Byte) : (s.poke a v).r = s.r := rfl
@[simp] theorem State.poke_d (s : State) (a : Word) (v : Byte) : (s.poke a v).d = s.d := rfl
@[simp] theorem State.poke_df (s : State) (a : Word) (v : Byte) : (s.poke a v).df = s.df := rfl
@[simp] theorem State.poke_x (s : State) (a : Word) (v : Byte) : (s.poke a v).x = s.x := rfl
@[simp] theorem State.poke_p (s : State) (a : Word) (v : Byte) : (s.poke a v).p = s.p := rfl
@[simp] theorem State.poke_q (s : State) (a : Word) (v : Byte) : (s.poke a v).q = s.q := rfl
@[simp] theorem State.poke_t (s : State) (a : Word) (v : Byte) : (s.poke a v).t = s.t := rfl
@[simp] theorem State.poke_ie (s : State) (a : Word) (v : Byte) : (s.poke a v).ie = s.ie := rfl
@[simp] theorem State.poke_status (s : State) (a : Word) (v : Byte) : (s.poke a v).status = s.status := rfl
@[simp] theorem State.poke_clk (s : State) (a : Word) (v : Byte) : (s.poke a v).clk = s.clk := rfl
@[simp] theorem State.poke_mem (s : State) (a : Word) (v : Byte) : (s.poke a v).mem = Memory.write s.mem a.toNat v := rfl
@[simp] theorem State.poke_tone (s : State) (a : Word) (v : Byte) : (s.poke a v).tone = s.tone := rfl
@[simp] theorem State.poke_events (s : State) (a : Word) (v : Byte) : (s.poke a v).events = s.events := rfl
@[simp] theorem State.poke_env (s : State) (a : Word) (v : Byte) : (s.poke a v).env = s.env := rfl
@[simp] theorem State.poke_host (s : State) (a : Word) (v : Byte) : (s.poke a v).host = s.host := rfl

@[simp] theorem State.sampleEf_r (s : State) (k : ExtFlag) : (s.sampleEf k).r = s.r := rfl
@[simp] theorem State.sampleEf_d (s : State) (k : ExtFlag) : (s.sampleEf k).d = s.d := rfl
@[simp] theorem State.sampleEf_df (s : State) (k : ExtFlag) : (s.sampleEf k).df = s.df := rfl
@[simp] theorem State.sampleEf_x (s : State) (k : ExtFlag) : (s.sampleEf k).x = s.x := rfl
@[simp] theorem State.sampleEf_p (s : State) (k : ExtFlag) : (s.sampleEf k).p = s.p := rfl
@[simp] theorem State.sampleEf_q (s : State) (k : ExtFlag) : (s.sampleEf k).q = s.q := rfl
@[simp] theorem State.sampleEf_t (s : State) (k : ExtFlag) : (s.sampleEf k).t = s.t := rfl
@[simp] theorem State.sampleEf_ie (s : State) (k : ExtFlag) : (s.sampleEf k).ie = s.ie := rfl
@[simp] theorem State.sampleEf_status (s : State) (k : ExtFlag) : (s.sampleEf k).status = s.status := rfl
@[simp] theorem State.sampleEf_clk (s : State) (k : ExtFlag) : (s.sampleEf k).clk = s.clk := rfl
@[simp] theorem State.sampleEf_mem (s : State) (k : ExtFlag) : (s.sampleEf k).mem = s.mem := rfl
@[simp] theorem State.sampleEf_tone (s : State) (k : ExtFlag) : (s.sampleEf k).tone = s.tone := rfl
@[simp] theorem State.sampleEf_events (s : State) (k : ExtFlag) : (s.sampleEf k).events = .efSample k (s.env.efValue k) :: s.events := rfl
@[simp] theorem State.sampleEf_env (s : State) (k : ExtFlag) : (s.sampleEf k).env = s.env.afterEf := rfl
@[simp] theorem State.sampleEf_host (s : State) (k : ExtFlag) : (s.sampleEf k).host = s.host := rfl

@[simp] theorem State.inPort_r (s : State) (p : Port) : (s.inPort p).r = s.r := rfl
@[simp] theorem State.inPort_d (s : State) (p : Port) : (s.inPort p).d = s.d := rfl
@[simp] theorem State.inPort_df (s : State) (p : Port) : (s.inPort p).df = s.df := rfl
@[simp] theorem State.inPort_x (s : State) (p : Port) : (s.inPort p).x = s.x := rfl
@[simp] theorem State.inPort_p (s : State) (p : Port) : (s.inPort p).p = s.p := rfl
@[simp] theorem State.inPort_q (s : State) (p : Port) : (s.inPort p).q = s.q := rfl
@[simp] theorem State.inPort_t (s : State) (p : Port) : (s.inPort p).t = s.t := rfl
@[simp] theorem State.inPort_ie (s : State) (p : Port) : (s.inPort p).ie = s.ie := rfl
@[simp] theorem State.inPort_status (s : State) (p : Port) : (s.inPort p).status = s.status := rfl
@[simp] theorem State.inPort_clk (s : State) (p : Port) : (s.inPort p).clk = s.clk := rfl
@[simp] theorem State.inPort_mem (s : State) (p : Port) : (s.inPort p).mem = s.mem := rfl
@[simp] theorem State.inPort_tone (s : State) (p : Port) : (s.inPort p).tone = s.tone := rfl
@[simp] theorem State.inPort_events (s : State) (p : Port) : (s.inPort p).events = .inPort p (s.env.portValue p) :: s.events := rfl
@[simp] theorem State.inPort_env (s : State) (p : Port) : (s.inPort p).env = s.env.afterPort := rfl
@[simp] theorem State.inPort_host (s : State) (p : Port) : (s.inPort p).host = s.host := rfl

@[simp] theorem State.latchQ_r (s : State) (b : Bool) : (s.latchQ b).r = s.r := rfl
@[simp] theorem State.latchQ_d (s : State) (b : Bool) : (s.latchQ b).d = s.d := rfl
@[simp] theorem State.latchQ_df (s : State) (b : Bool) : (s.latchQ b).df = s.df := rfl
@[simp] theorem State.latchQ_x (s : State) (b : Bool) : (s.latchQ b).x = s.x := rfl
@[simp] theorem State.latchQ_p (s : State) (b : Bool) : (s.latchQ b).p = s.p := rfl
@[simp] theorem State.latchQ_q (s : State) (b : Bool) : (s.latchQ b).q = b := rfl
@[simp] theorem State.latchQ_t (s : State) (b : Bool) : (s.latchQ b).t = s.t := rfl
@[simp] theorem State.latchQ_ie (s : State) (b : Bool) : (s.latchQ b).ie = s.ie := rfl
@[simp] theorem State.latchQ_status (s : State) (b : Bool) : (s.latchQ b).status = s.status := rfl
@[simp] theorem State.latchQ_clk (s : State) (b : Bool) : (s.latchQ b).clk = s.clk := rfl
@[simp] theorem State.latchQ_mem (s : State) (b : Bool) : (s.latchQ b).mem = s.mem := rfl
@[simp] theorem State.latchQ_tone (s : State) (b : Bool) : (s.latchQ b).tone = s.tone := rfl
@[simp] theorem State.latchQ_events (s : State) (b : Bool) : (s.latchQ b).events = .notifyQ b :: s.events := rfl
@[simp] theorem State.latchQ_env (s : State) (b : Bool) : (s.latchQ b).env = s.env := rfl
@[simp] theorem State.latchQ_host (s : State) (b : Bool) : (s.latchQ b).host = s.host := rfl

@[simp] theorem State.raiseHalt_r (s : State) : s.raiseHalt.r = s.r := rfl
@[simp] theorem State.raiseHalt_d (s : State) : s.raiseHalt.d = s.d := rfl
@[simp] theorem State.raiseHalt_df (s : State) : s.raiseHalt.df = s.df := rfl
@[simp] theorem State.raiseHalt_x (s : State) : s.raiseHalt.x = s.x := rfl
@[simp] theorem State.raiseHalt_p (s : State) : s.raiseHalt.p = s.p := rfl
@[simp] theorem State.raiseHalt_q (s : State) : s.raiseHalt.q = s.q := rfl
@[simp] theorem State.raiseHalt_t (s : State) : s.raiseHalt.t = s.t := rfl
@[simp] theorem State.raiseHalt_ie (s : State) : s.raiseHalt.ie = s.ie := rfl
@[simp] theorem State.raiseHalt_status (s : State) : s.raiseHalt.status = .halted := rfl
@[simp] theorem State.raiseHalt_clk (s : State) : s.raiseHalt.clk = s.clk := rfl
@[simp] theorem State.raiseHalt_mem (s : State) : s.raiseHalt.mem = s.mem := rfl
@[simp] theorem State.raiseHalt_tone (s : State) : s.raiseHalt.tone = s.tone := rfl
@[simp] theorem State.raiseHalt_events (s : State) : s.raiseHalt.events = .halt :: s.events := rfl
@[simp] theorem State.raiseHalt_env (s : State) : s.raiseHalt.env = s.env := rfl
@[simp] theorem State.raiseHalt_host (s : State) : s.raiseHalt.host = s.host := rfl

@[simp] theorem State.raiseIllegal_r (s : State) (op : Byte) (a : Word) : (s.raiseIllegal op a).r = s.r := rfl
@[simp] theorem State.raiseIllegal_d (s : State) (op : Byte) (a : Word) : (s.raiseIllegal op a).d = s.d := rfl
@[simp] theorem State.raiseIllegal_df (s : State) (op : Byte) (a : Word) : (s.raiseIllegal op a).df = s.df := rfl
@[simp] theorem State.raiseIllegal_x (s : State) (op : Byte) (a : Word) : (s.raiseIllegal op a).x = s.x := rfl
@[simp] theorem State.raiseIllegal_p (s : State) (op : Byte) (a : Word) : (s.raiseIllegal op a).p = s.p := rfl
@[simp] theorem State.raiseIllegal_q (s : State) (op : Byte) (a : Word) : (s.raiseIllegal op a).q = s.q := rfl
@[simp] theorem State.raiseIllegal_t (s : State) (op : Byte) (a : Word) : (s.raiseIllegal op a).t = s.t := rfl
@[simp] theorem State.raiseIllegal_ie (s : State) (op : Byte) (a : Word) : (s.raiseIllegal op a).ie = s.ie := rfl
@[simp] theorem State.raiseIllegal_status (s : State) (op : Byte) (a : Word) : (s.raiseIllegal op a).status = .illegalOpcode op a := rfl
@[simp] theorem State.raiseIllegal_clk (s : State) (op : Byte) (a : Word) : (s.raiseIllegal op a).clk = s.clk := rfl
@[simp] theorem State.raiseIllegal_mem (s : State) (op : Byte) (a : Word) : (s.raiseIllegal op a).mem = s.mem := rfl
@[simp] theorem State.raiseIllegal_tone (s : State) (op : Byte) (a : Word) : (s.raiseIllegal op a).tone = s.tone := rfl
@[simp] theorem State.raiseIllegal_events (s : State) (op : Byte) (a : Word) : (s.raiseIllegal op a).events = .illegalOpcode op a :: s.events := rfl
@[simp] theorem State.raiseIllegal_env (s : State) (op : Byte) (a : Word) : (s.raiseIllegal op a).env = s.env := rfl
@[simp] theorem State.raiseIllegal_host (s : State) (op : Byte) (a : Word) : (s.raiseIllegal op a).host = s.host := rfl

@[simp] theorem State.setClk_r (s : State) (n : Nat) : (s.setClk n).r = s.r := rfl
@[simp] theorem State.setClk_d (s : State) (n : Nat) : (s.setClk n).d = s.d := rfl
@[simp] theorem State.setClk_df (s : State) (n : Nat) : (s.setClk n).df = s.df := rfl
@[simp] theorem State.setClk_x (s : State) (n : Nat) : (s.setClk n).x = s.x := rfl
@[simp] theorem State.setClk_p (s : State) (n : Nat) : (s.setClk n).p = s.p := rfl
@[simp] theorem State.setClk_q (s : State) (n : Nat) : (s.setClk n).q = s.q := rfl
@[simp] theorem State.setClk_t (s : State) (n : Nat) : (s.setClk n).t = s.t := rfl
@[simp] theorem State.setClk_ie (s : State) (n : Nat) : (s.setClk n).ie = s.ie := rfl
@[simp] theorem State.setClk_status (s : State) (n : Nat) : (s.setClk n).status = s.status := rfl
@[simp] theorem State.setClk_clk (s : State) (n : Nat) : (s.setClk n).clk = n := rfl
@[simp] theorem State.setClk_mem (s : State) (n : Nat) : (s.setClk n).mem = s.mem := rfl
@[simp] theorem State.setClk_tone (s : State) (n : Nat) : (s.setClk n).tone = s.tone := rfl
@[simp] theorem State.setClk_events (s : State) (n : Nat) : (s.setClk n).events = s.events := rfl
@[simp] theorem State.setClk_env (s : State) (n : Nat) : (s.setClk n).env = s.env := rfl
@[simp] theorem State.setClk_host (s : State) (n : Nat) : (s.setClk n).host = s.host := rfl

@[simp] theorem State.setPhase_r (s : State) (ph : RunPhase) : (s.setPhase ph).r = s.r := rfl
@[simp] theorem State.setPhase_d (s : State) (ph : RunPhase) : (s.setPhase ph).d = s.d := rfl
@[simp] theorem State.setPhase_df (s : State) (ph : RunPhase) : (s.setPhase ph).df = s.df := rfl
@[simp] theorem State.setPhase_x (s : State) (ph : RunPhase) : (s.setPhase ph).x = s.x := rfl
@[simp] theorem State.setPhase_p (s : State) (ph : RunPhase) : (s.setPhase ph).p = s.p := rfl
@[simp] theorem State.setPhase_q (s : State) (ph : RunPhase) : (s.setPhase ph).q = s.q := rfl
@[simp] theorem State.setPhase_t (s : State) (ph : RunPhase) : (s.setPhase ph).t = s.t := rfl
@[simp] theorem State.setPhase_ie (s : State) (ph : RunPhase) : (s.setPhase ph).ie = s.ie := rfl
@[simp] theorem State.setPhase_status (s : State) (ph : RunPhase) : (s.setPhase ph).status = s.status := rfl
@[simp] theorem State.setPhase_clk (s : State) (ph : RunPhase) : (s.setPhase ph).clk = s.clk := rfl
@[simp] theorem State.setPhase_mem (s : State) (ph : RunPhase) : (s.setPhase ph).mem = s.mem := rfl
@[simp] theorem State.setPhase_tone (s : State) (ph : RunPhase) : (s.setPhase ph).tone = s.tone := rfl
@[simp] theorem State.setPhase_events (s : State) (ph : RunPhase) : (s.setPhase ph).events = s.events := rfl
@[simp] theorem State.setPhase_env (s : State) (ph : RunPhase) : (s.setPhase ph).env = s.env := rfl
@[simp] theorem State.setPhase_host (s : State) (ph : RunPhase) : (s.setPhase ph).host = { s.host with phase := ph } := rfl

/-! ### The composite operations over the updates above -/

@[simp] theorem State.readCell_eq (s : State) (a : Word) : s.readCell a = s.emit (.memRead a (s.byteAt a)) := rfl
@[simp] theorem State.writeCell_eq (s : State) (a : Word) (v : Byte) : s.writeCell a v = (s.poke a v).emit (.memWrite a v) := rfl
@[simp] theorem State.outPort_eq (s : State) (p : Port) (v : Byte) : s.outPort p v = s.emit (.outPort p v) := rfl
@[simp] theorem State.setPc_eq (s : State) (v : Word) : s.setPc v = s.setReg s.p v := rfl
@[simp] theorem State.incReg_eq (s : State) (n : Reg) : s.incReg n = s.setReg n (s.reg n + 1) := rfl
@[simp] theorem State.decReg_eq (s : State) (n : Reg) : s.decReg n = s.setReg n (s.reg n - 1) := rfl
@[simp] theorem State.operandN_eq (s : State) (n : Reg) : s.operandN n = s.byteAt (s.reg n) := rfl
@[simp] theorem State.operandX_eq (s : State) : s.operandX = s.byteAt (s.reg s.x) := rfl
@[simp] theorem State.readN_eq (s : State) (n : Reg) : s.readN n = s.readCell (s.reg n) := rfl
@[simp] theorem State.readX_eq (s : State) : s.readX = s.readCell (s.reg s.x) := rfl
@[simp] theorem State.readNInc_eq (s : State) (n : Reg) : s.readNInc n = (s.readCell (s.reg n)).incReg n := rfl
@[simp] theorem State.readXInc_eq (s : State) : s.readXInc = (s.readCell (s.reg s.x)).incReg s.x := rfl
@[simp] theorem State.writeN_eq (s : State) (n : Reg) (v : Byte) : s.writeN n v = s.writeCell (s.reg n) v := rfl
@[simp] theorem State.writeX_eq (s : State) (v : Byte) : s.writeX v = s.writeCell (s.reg s.x) v := rfl
@[simp] theorem State.writeNDec_eq (s : State) (n : Reg) (v : Byte) : s.writeNDec n v = (s.writeCell (s.reg n) v).decReg n := rfl
@[simp] theorem State.setResult_eq (s : State) (v : DDF) : s.setResult v = s.setDDF v.d v.df := rfl
@[simp] theorem State.fetchOperand_eq (s : State) (v : Byte) : s.fetchOperand v = (s.emit (.memRead s.pc v)).setReg s.p (s.pc + 1) := rfl

theorem State.fetchOpcode_eq (s : State) :
    s.fetchOpcode = (s.emit (.memRead s.pc s.opcode)).setReg s.p (s.pc + 1) := rfl

end Sys2Proof.Machine
end

