-- ==== Sys2Proof/Laws/Ops.lean ====
section
/-! SUPPORT. What the shared operations do to the register file and to memory, and what executing one instruction can
do to the parts outside it. -/

namespace Sys2Proof.Machine

open Sys2Proof

/-! ### Registers -/

@[simp] theorem State.reg_setReg (s : State) (n k : Reg) (v : Word) :
    (s.setReg n v).reg k = if k = n then v else s.reg k := by
  simp only [State.reg, State.setReg, Fin.getElem_fin, Vector.getElem_set]
  by_cases h : k = n
  · simp [h]
  · have hne : ¬ n.toFin.val = k.toFin.val := fun e => h (BitVec.eq_of_toNat_eq (by simpa using e.symm))
    rw [if_neg hne, if_neg h]

@[simp] theorem State.reg_setD (s : State) (v : Byte) (k : Reg) : (s.setD v).reg k = s.reg k := rfl
@[simp] theorem State.reg_setDDF (s : State) (v : Byte) (f : Bool) (k : Reg) : (s.setDDF v f).reg k = s.reg k := rfl
@[simp] theorem State.reg_setX (s : State) (n k : Reg) : (s.setX n).reg k = s.reg k := rfl
@[simp] theorem State.reg_setP (s : State) (n k : Reg) : (s.setP n).reg k = s.reg k := rfl
@[simp] theorem State.reg_setT (s : State) (v : Byte) (k : Reg) : (s.setT v).reg k = s.reg k := rfl
@[simp] theorem State.reg_setIE (s : State) (b : Bool) (k : Reg) : (s.setIE b).reg k = s.reg k := rfl
@[simp] theorem State.reg_emit (s : State) (e : Event) (k : Reg) : (s.emit e).reg k = s.reg k := rfl
@[simp] theorem State.reg_poke (s : State) (a : Word) (v : Byte) (k : Reg) : (s.poke a v).reg k = s.reg k := rfl
@[simp] theorem State.reg_sampleEf (s : State) (e : ExtFlag) (k : Reg) : (s.sampleEf e).reg k = s.reg k := rfl
@[simp] theorem State.reg_inPort (s : State) (p : Port) (k : Reg) : (s.inPort p).reg k = s.reg k := rfl
@[simp] theorem State.reg_latchQ (s : State) (b : Bool) (k : Reg) : (s.latchQ b).reg k = s.reg k := rfl
@[simp] theorem State.reg_raiseHalt (s : State) (k : Reg) : s.raiseHalt.reg k = s.reg k := rfl
@[simp] theorem State.reg_raiseIllegal (s : State) (op : Byte) (a : Word) (k : Reg) :
    (s.raiseIllegal op a).reg k = s.reg k := rfl
@[simp] theorem State.reg_setClk (s : State) (n : Nat) (k : Reg) : (s.setClk n).reg k = s.reg k := rfl
@[simp] theorem State.reg_setPhase (s : State) (ph : RunPhase) (k : Reg) : (s.setPhase ph).reg k = s.reg k := rfl

/-! ### Memory -/

@[simp] theorem State.byteAt_setReg (s : State) (n : Reg) (v a : Word) : (s.setReg n v).byteAt a = s.byteAt a := rfl
@[simp] theorem State.byteAt_setD (s : State) (v : Byte) (a : Word) : (s.setD v).byteAt a = s.byteAt a := rfl
@[simp] theorem State.byteAt_setDDF (s : State) (v : Byte) (f : Bool) (a : Word) :
    (s.setDDF v f).byteAt a = s.byteAt a := rfl
@[simp] theorem State.byteAt_setClk (s : State) (n : Nat) (a : Word) : (s.setClk n).byteAt a = s.byteAt a := rfl
@[simp] theorem State.byteAt_setPhase (s : State) (ph : RunPhase) (a : Word) :
    (s.setPhase ph).byteAt a = s.byteAt a := rfl
@[simp] theorem State.byteAt_setX (s : State) (n : Reg) (a : Word) : (s.setX n).byteAt a = s.byteAt a := rfl
@[simp] theorem State.byteAt_setP (s : State) (n : Reg) (a : Word) : (s.setP n).byteAt a = s.byteAt a := rfl
@[simp] theorem State.byteAt_setT (s : State) (v : Byte) (a : Word) : (s.setT v).byteAt a = s.byteAt a := rfl
@[simp] theorem State.byteAt_setIE (s : State) (b : Bool) (a : Word) : (s.setIE b).byteAt a = s.byteAt a := rfl
@[simp] theorem State.byteAt_emit (s : State) (e : Event) (a : Word) : (s.emit e).byteAt a = s.byteAt a := rfl
@[simp] theorem State.byteAt_sampleEf (s : State) (k : ExtFlag) (a : Word) :
    (s.sampleEf k).byteAt a = s.byteAt a := rfl
@[simp] theorem State.byteAt_inPort (s : State) (p : Port) (a : Word) : (s.inPort p).byteAt a = s.byteAt a := rfl
@[simp] theorem State.byteAt_latchQ (s : State) (b : Bool) (a : Word) : (s.latchQ b).byteAt a = s.byteAt a := rfl
@[simp] theorem State.byteAt_raiseHalt (s : State) (a : Word) : s.raiseHalt.byteAt a = s.byteAt a := rfl
@[simp] theorem State.byteAt_raiseIllegal (s : State) (op : Byte) (b a : Word) :
    (s.raiseIllegal op b).byteAt a = s.byteAt a := rfl

/-! ### The program counter (R23, R111) -/

theorem State.pc_eq (s : State) : s.pc = s.reg s.p := rfl

@[simp] theorem State.pc_emit (s : State) (e : Event) : (s.emit e).pc = s.pc := rfl

/-- `Fetch()` leaves `R[P]` one further on, mod 2^16. -/
@[simp] theorem State.pc_fetchOpcode (s : State) : s.fetchOpcode.pc = s.pc + 1 := by
  simp [State.fetchOpcode_eq, State.pc_eq]

theorem State.reg_fetchOpcode (s : State) (k : Reg) :
    s.fetchOpcode.reg k = if k = s.p then s.pc + 1 else s.reg k := by
  simp [State.fetchOpcode_eq]

@[simp] theorem State.byteAt_fetchOpcode (s : State) (a : Word) : s.fetchOpcode.byteAt a = s.byteAt a := rfl

/-! ### Control transfer -/

/-- A short branch writes `R[P]` only: the target when taken, one further on when not (R191, R192). -/
theorem State.shortBranch_reg (s : State) (c : Bool) (a8 : Byte) (k : Reg) :
    (s.shortBranch c a8).reg k =
      if k = s.p then (if c then shortTarget s.pc a8 else s.pc + 1) else s.reg k := by
  cases c <;> simp [State.shortBranch]

/-- A long branch writes `R[P]` only: the target when taken, two further on when not (R211). -/
theorem State.longBranch_reg (s : State) (c : Bool) (ahi alo : Byte) (k : Reg) :
    (s.longBranch c ahi alo).reg k =
      if k = s.p then (if c then join ahi alo else s.pc + 2) else s.reg k := by
  have h2 : s.reg s.p + 1#16 + 1#16 = s.reg s.p + 2#16 := by rw [BitVec.add_assoc]; rfl
  cases c <;> by_cases hk : k = s.p <;> simp [State.longBranch, State.pc_eq, hk, h2]

/-- A long skip writes `R[P]` only: two further on when it skips (R212). -/
theorem State.longSkip_reg (s : State) (c : Bool) (k : Reg) :
    (s.longSkip c).reg k = if k = s.p ∧ c = true then s.pc + 2 else s.reg k := by
  cases c <;> simp [State.longSkip]

/-! ### What one instruction can do (R64, R300): one lemma for all 80 meanings -/

/-- `u` differs from `s` only as an instruction may make it differ: `clk`, the tone generator and the host's side are
unchanged, canonical memory stays canonical, and `status` is unchanged or one of the two stops. -/
structure InstrEffect (s u : State) : Prop where
  clk : u.clk = s.clk
  tone : u.tone = s.tone
  host : u.host = s.host
  mem_wf : Memory.wf s.mem = true → Memory.wf u.mem = true
  status : u.status = s.status ∨ u.status = .halted ∨ ∃ a, u.status = .illegalOpcode 0x68 a

theorem InstrEffect.of_kept {s u : State} (hc : u.clk = s.clk) (ht : u.tone = s.tone) (hh : u.host = s.host)
    (hm : u.mem = s.mem) (hs : u.status = s.status) : InstrEffect s u :=
  ⟨hc, ht, hh, fun h => by rw [hm]; exact h, .inl hs⟩

theorem InstrEffect.of_store {s u : State} (a : Word) (v : Byte) (hc : u.clk = s.clk) (ht : u.tone = s.tone)
    (hh : u.host = s.host) (hm : u.mem = (s.poke a v).mem) (hs : u.status = s.status) : InstrEffect s u :=
  ⟨hc, ht, hh, fun h => by rw [hm]; exact s.poke_wf a v h, .inl hs⟩

theorem State.shortBranch_effect (s : State) (c : Bool) (a8 : Byte) : InstrEffect s (s.shortBranch c a8) := by
  cases c <;> exact .of_kept rfl rfl rfl rfl rfl

theorem State.sampledBranch_effect (s : State) (k : ExtFlag) (c : Bool) (a8 : Byte) :
    InstrEffect s ((s.sampleEf k).shortBranch c a8) := by
  cases c <;> exact .of_kept rfl rfl rfl rfl rfl

theorem State.longBranch_effect (s : State) (c : Bool) (ahi alo : Byte) :
    InstrEffect s (s.longBranch c ahi alo) := by
  cases c <;> exact .of_kept rfl rfl rfl rfl rfl

theorem State.longSkip_effect (s : State) (c : Bool) : InstrEffect s (s.longSkip c) := by
  cases c <;> exact .of_kept rfl rfl rfl rfl rfl

/-- Every instruction completes with a next state (R300), and with no more effect than `InstrEffect` allows. -/
theorem exec_next (i : Instr) (s : State) : ∃ u, exec i s = .next u ∧ InstrEffect s u := by
  cases i
  case idl => exact ⟨_, rfl, rfl, rfl, rfl, id, .inr (.inl rfl)⟩
  case illegal => exact ⟨_, rfl, rfl, rfl, rfl, id, .inr (.inr ⟨_, rfl⟩)⟩
  case str | stxd | sav | mark | inp => exact ⟨_, rfl, .of_store _ _ rfl rfl rfl rfl rfl⟩
  case br | bq | bz | bdf | skp | bnq | bnz | bnf => exact ⟨_, rfl, s.shortBranch_effect _ _⟩
  case b1 | b2 | b3 | b4 | bn1 | bn2 | bn3 | bn4 => exact ⟨_, rfl, s.sampledBranch_effect _ _ _⟩
  case lbr | lbq | lbz | lbdf | lbnq | lbnz | lbnf => exact ⟨_, rfl, s.longBranch_effect _ _ _⟩
  case lsnq | lsnz | lsnf | lskp | lsie | lsq | lsz | lsdf => exact ⟨_, rfl, s.longSkip_effect _⟩
  all_goals exact ⟨_, rfl, .of_kept rfl rfl rfl rfl rfl⟩

theorem exec_effect {i : Instr} {s u : State} (h : exec i s = .next u) : InstrEffect s u := by
  obtain ⟨u', h', e⟩ := exec_next i s
  rw [h'] at h
  cases h
  exact e

/-! ### No instruction reads or changes the phase of the host's `Run` calls (R56, R121) -/

theorem State.shortBranch_setPhase (s : State) (ph : RunPhase) (c : Bool) (a8 : Byte) :
    (s.setPhase ph).shortBranch c a8 = (s.shortBranch c a8).setPhase ph := by
  cases c <;> rfl

theorem State.longBranch_setPhase (s : State) (ph : RunPhase) (c : Bool) (ahi alo : Byte) :
    (s.setPhase ph).longBranch c ahi alo = (s.longBranch c ahi alo).setPhase ph := by
  cases c <;> rfl

theorem State.longSkip_setPhase (s : State) (ph : RunPhase) (c : Bool) :
    (s.setPhase ph).longSkip c = (s.longSkip c).setPhase ph := by
  cases c <;> rfl

/-- Setting the phase before an instruction is setting it after. -/
theorem exec_setPhase (i : Instr) (ph : RunPhase) (s : State) :
    ∃ u, exec i s = .next u ∧ exec i (s.setPhase ph) = .next (u.setPhase ph) := by
  cases i
  case br | bq | bz | bdf | skp | bnq | bnz | bnf =>
    exact ⟨_, rfl, congrArg Host.Outcome.next (s.shortBranch_setPhase ph _ _)⟩
  case b1 | b2 | b3 | b4 | bn1 | bn2 | bn3 | bn4 =>
    exact ⟨_, rfl, congrArg Host.Outcome.next ((s.sampleEf _).shortBranch_setPhase ph _ _)⟩
  case lbr | lbq | lbz | lbdf | lbnq | lbnz | lbnf =>
    exact ⟨_, rfl, congrArg Host.Outcome.next (s.longBranch_setPhase ph _ _ _)⟩
  case lsnq | lsnz | lsnf | lskp | lsie | lsq | lsz | lsdf =>
    exact ⟨_, rfl, congrArg Host.Outcome.next (s.longSkip_setPhase ph _)⟩
  all_goals exact ⟨_, rfl, rfl⟩

end Sys2Proof.Machine
end

