-- ==== Sys2Proof/Laws/PerInstr.lean ====
section
/-! SUPPORT. Statements about every instruction as syntax, one lemma per constructor. -/

namespace Sys2Proof.Laws.EncodeLength

open Sys2Proof

/-- The encoding has the instruction's length (R90). -/
def Statement (i : Instr) : Prop := (encode i).length = i.length

theorem idl : Statement .idl := rfl
theorem ldn (n : Reg) : Statement (.ldn n) := rfl
theorem inc (n : Reg) : Statement (.inc n) := rfl
theorem dec (n : Reg) : Statement (.dec n) := rfl
theorem br (a8 : Byte) : Statement (.br a8) := rfl
theorem bq (a8 : Byte) : Statement (.bq a8) := rfl
theorem bz (a8 : Byte) : Statement (.bz a8) := rfl
theorem bdf (a8 : Byte) : Statement (.bdf a8) := rfl
theorem b1 (a8 : Byte) : Statement (.b1 a8) := rfl
theorem b2 (a8 : Byte) : Statement (.b2 a8) := rfl
theorem b3 (a8 : Byte) : Statement (.b3 a8) := rfl
theorem b4 (a8 : Byte) : Statement (.b4 a8) := rfl
theorem skp (a8 : Byte) : Statement (.skp a8) := rfl
theorem bnq (a8 : Byte) : Statement (.bnq a8) := rfl
theorem bnz (a8 : Byte) : Statement (.bnz a8) := rfl
theorem bnf (a8 : Byte) : Statement (.bnf a8) := rfl
theorem bn1 (a8 : Byte) : Statement (.bn1 a8) := rfl
theorem bn2 (a8 : Byte) : Statement (.bn2 a8) := rfl
theorem bn3 (a8 : Byte) : Statement (.bn3 a8) := rfl
theorem bn4 (a8 : Byte) : Statement (.bn4 a8) := rfl
theorem lda (n : Reg) : Statement (.lda n) := rfl
theorem str (n : Reg) : Statement (.str n) := rfl
theorem irx : Statement .irx := rfl
theorem out (p : Port) : Statement (.out p) := rfl
theorem illegal : Statement .illegal := rfl
theorem inp (p : Port) : Statement (.inp p) := rfl
theorem ret : Statement .ret := rfl
theorem dis : Statement .dis := rfl
theorem ldxa : Statement .ldxa := rfl
theorem stxd : Statement .stxd := rfl
theorem adc : Statement .adc := rfl
theorem sdb : Statement .sdb := rfl
theorem shrc : Statement .shrc := rfl
theorem smb : Statement .smb := rfl
theorem sav : Statement .sav := rfl
theorem mark : Statement .mark := rfl
theorem req : Statement .req := rfl
theorem seq : Statement .seq := rfl
theorem adci (imm8 : Byte) : Statement (.adci imm8) := rfl
theorem sdbi (imm8 : Byte) : Statement (.sdbi imm8) := rfl
theorem shlc : Statement .shlc := rfl
theorem smbi (imm8 : Byte) : Statement (.smbi imm8) := rfl
theorem glo (n : Reg) : Statement (.glo n) := rfl
theorem ghi (n : Reg) : Statement (.ghi n) := rfl
theorem plo (n : Reg) : Statement (.plo n) := rfl
theorem phi (n : Reg) : Statement (.phi n) := rfl
theorem lbr (ahi : Byte) (alo : Byte) : Statement (.lbr ahi alo) := rfl
theorem lbq (ahi : Byte) (alo : Byte) : Statement (.lbq ahi alo) := rfl
theorem lbz (ahi : Byte) (alo : Byte) : Statement (.lbz ahi alo) := rfl
theorem lbdf (ahi : Byte) (alo : Byte) : Statement (.lbdf ahi alo) := rfl
theorem nop : Statement .nop := rfl
theorem lsnq : Statement .lsnq := rfl
theorem lsnz : Statement .lsnz := rfl
theorem lsnf : Statement .lsnf := rfl
theorem lskp : Statement .lskp := rfl
theorem lbnq (ahi : Byte) (alo : Byte) : Statement (.lbnq ahi alo) := rfl
theorem lbnz (ahi : Byte) (alo : Byte) : Statement (.lbnz ahi alo) := rfl
theorem lbnf (ahi : Byte) (alo : Byte) : Statement (.lbnf ahi alo) := rfl
theorem lsie : Statement .lsie := rfl
theorem lsq : Statement .lsq := rfl
theorem lsz : Statement .lsz := rfl
theorem lsdf : Statement .lsdf := rfl
theorem sep (n : Reg) : Statement (.sep n) := rfl
theorem sex (n : Reg) : Statement (.sex n) := rfl
theorem ldx : Statement .ldx := rfl
theorem or : Statement .or := rfl
theorem and : Statement .and := rfl
theorem xor : Statement .xor := rfl
theorem add : Statement .add := rfl
theorem sd : Statement .sd := rfl
theorem shr : Statement .shr := rfl
theorem sm : Statement .sm := rfl
theorem ldi (imm8 : Byte) : Statement (.ldi imm8) := rfl
theorem ori (imm8 : Byte) : Statement (.ori imm8) := rfl
theorem ani (imm8 : Byte) : Statement (.ani imm8) := rfl
theorem xri (imm8 : Byte) : Statement (.xri imm8) := rfl
theorem adi (imm8 : Byte) : Statement (.adi imm8) := rfl
theorem sdi (imm8 : Byte) : Statement (.sdi imm8) := rfl
theorem shl : Statement .shl := rfl
theorem smi (imm8 : Byte) : Statement (.smi imm8) := rfl

end Sys2Proof.Laws.EncodeLength
end

