-- ==== Sys2Proof/Laws/Step.lean ====
section
/-! SUPPORT. What one step can be: inversion lemmas for the instruction step, the engine's turn and the host's moves. -/

namespace Sys2Proof.Machine

open Sys2Proof

@[simp] theorem accountOutcome_next (op : Byte) (s : State) :
    accountOutcome op (.next s) = .next (s.account op) := rfl

theorem State.account_running {s : State} (op : Byte) (h : s.status = .running) :
    s.account op = s.setClk (s.clk + cost op) := by
  simp [State.account, h]

theorem State.account_stopped {s : State} (op : Byte) (h : s.status ≠ .running) : s.account op = s := by
  unfold State.account
  cases hs : s.status <;> simp_all

/-- Accounting changes `clk` only. -/
theorem State.account_eq (s : State) (op : Byte) : s.account op = s.setClk (s.account op).clk := by
  by_cases h : s.status = .running
  · rw [State.account_running op h, State.setClk_clk]
  · rw [State.account_stopped op h]; rfl

/-- A completed instruction step is the executed instruction with its cost accounted (R112). -/
theorem engineStep_next {s u : State} (h : engineStep s = .next u) :
    s.host.resetDone = true ∧ s.status = .running ∧
      ∃ v, exec s.decodeAtPc s.fetchOpcode = .next v ∧ u = v.account s.opcode := by
  unfold engineStep at h
  split at h
  · rename_i hr
    cases hs : s.status <;> simp only [hs] at h
    · obtain ⟨v, hv, -⟩ := exec_next s.decodeAtPc s.fetchOpcode
      rw [hv, accountOutcome_next] at h
      cases h
      exact ⟨hr, rfl, v, hv, rfl⟩
    · cases h
    · cases h
  · cases h

/-- An initialised running engine always completes its step (R300). -/
theorem engineStep_running {s : State} (hr : s.host.resetDone = true) (hs : s.status = .running) :
    ∃ v, exec s.decodeAtPc s.fetchOpcode = .next v ∧ engineStep s = .next (v.account s.opcode) := by
  obtain ⟨v, hv, -⟩ := exec_next s.decodeAtPc s.fetchOpcode
  exact ⟨v, hv, by simp [engineStep, hr, hs, hv]⟩

/-- The loop of `Run` goes on exactly while the engine runs and `clk` is below the budget (R116). -/
theorem State.runGoesOn_iff (s : State) (b : Int) :
    s.runGoesOn b = true ↔ s.status = .running ∧ (s.clk : Int) < b := by
  simp [State.runGoesOn]

theorem engineTurn_of_stepping {s : State} (h : s.host.phase = .stepping) : engineTurn s = engineStep s := by
  simp [engineTurn, h]

theorem engineTurn_of_running {s : State} {b : Int} (h : s.host.phase = .running b) :
    engineTurn s = if s.runGoesOn b then engineStep s else .next (s.returnFromRun b) := by
  simp [engineTurn, h]

/-- Between the return of one `Run` and the entry of the next the engine's turn changes nothing (R56). -/
theorem engineTurn_of_returned {s : State} (h : s.host.phase = .returned) : engineTurn s = .next s := by
  simp [engineTurn, h]

/-- An engine turn that completes is an instruction step, the return of a `Run` call whose loop has ended (R116), or
nothing at all between two calls (R56). -/
theorem engineTurn_next {s u : State} (h : engineTurn s = .next u) :
    (engineStep s = .next u ∧ s.host.phase ≠ .returned ∧ ∀ b, s.host.phase = .running b → (s.clk : Int) < b) ∨
      (∃ b, s.host.phase = .running b ∧ s.runGoesOn b = false ∧ u = s.returnFromRun b) ∨
      (s.host.phase = .returned ∧ u = s) := by
  cases hp : s.host.phase with
  | stepping => exact .inl ⟨by rwa [engineTurn_of_stepping hp] at h, nofun, nofun⟩
  | returned =>
    rw [engineTurn_of_returned hp] at h
    cases h
    exact .inr (.inr ⟨rfl, rfl⟩)
  | running b =>
    rw [engineTurn_of_running hp] at h
    split at h
    · rename_i hg
      exact .inl ⟨h, nofun, fun b' hb' => by cases hb'; exact ((s.runGoesOn_iff b).mp hg).2⟩
    · rename_i hg
      cases h
      exact .inr (.inl ⟨b, rfl, by simpa using hg, rfl⟩)

/-- With nothing scheduled the step is the engine's turn (R342). -/
theorem step_of_idle {s : State} (h : s.host.schedule = []) : step s = engineTurn s := by
  simp [step, turn, h]

/-- A scheduled move is taken off the schedule and done. -/
theorem step_of_scheduled {s : State} {m : Move} {ms : List Move} (h : s.host.schedule = m :: ms) :
    step s = move m { s with host := { s.host with schedule := ms } } := by
  simp [step, turn, h]

/-- A ready engine's step is its instruction step. -/
theorem step_of_ready {s : State} (h : EngineReady s) : step s = engineStep s := by
  obtain ⟨hi, -, hs, hr, hb⟩ := h
  rw [step_of_idle hi]
  cases hp : s.host.phase with
  | stepping => exact engineTurn_of_stepping hp
  | returned => exact absurd hp hr
  | running b => rw [engineTurn_of_running hp, if_pos ((s.runGoesOn_iff b).mpr ⟨hs, hb b hp⟩)]

theorem betweenRuns_next {s u : State} {o : Host.Outcome State Fault Refusal} (h : betweenRuns s o = .next u) :
    (∀ b, s.host.phase ≠ .running b) ∧ o = .next u := by
  unfold betweenRuns at h
  cases hp : s.host.phase <;> simp only [hp] at h
  · exact ⟨nofun, h⟩
  · cases h
  · exact ⟨nofun, h⟩

end Sys2Proof.Machine
end

