-- ==== Sys2Proof/Laws/Tone.lean ====
section
/-! SUPPORT. What the tone operations do to one channel and to the generator's other fields. -/

namespace Sys2Proof.Machine

open Sys2Proof

theorem chan_ne_val {c k : Chan} (h : k ≠ c) : ¬ c.toFin.val = k.toFin.val :=
  fun e => h (BitVec.eq_of_toNat_eq (by simpa using e.symm))

@[simp] theorem Tone.chan_setChan (g : Tone) (c k : Chan) (v : Channel) :
    (g.setChan c v).chan k = if k = c then v else g.chan k := by
  simp only [Tone.chan, Tone.setChan, Fin.getElem_fin, Vector.getElem_set]
  by_cases h : k = c
  · simp [h]
  · rw [if_neg (chan_ne_val h), if_neg h]

@[simp] theorem Tone.setChan_stage (g : Tone) (c : Chan) (v : Channel) : (g.setChan c v).stage = g.stage := rfl
@[simp] theorem Tone.setChan_rng (g : Tone) (c : Chan) (v : Channel) : (g.setChan c v).rng = g.rng := rfl
@[simp] theorem Tone.setChan_clipCount (g : Tone) (c : Chan) (v : Channel) :
    (g.setChan c v).clipCount = g.clipCount := rfl
@[simp] theorem Tone.setChan_sampleCount (g : Tone) (c : Chan) (v : Channel) :
    (g.setChan c v).sampleCount = g.sampleCount := rfl

theorem mapChannels_eq_map (f : Channel → Channel) (v : Vector Channel 32) : mapChannels f v = v.map f := by
  apply Vector.toList_inj.mp
  simp [mapChannels, Vector.toList_map]

@[simp] theorem mapChannels_getElem (f : Channel → Channel) (v : Vector Channel 32) (k : Nat) (h : k < 32) :
    (mapChannels f v)[k] = f v[k] := by
  simp [mapChannels_eq_map]

@[simp] theorem Tone.mute_chan (g : Tone) (c : Chan) : g.mute.chan c = Channel.zero := by
  simp [Tone.chan, Tone.mute]

@[simp] theorem Tone.mute_stage (g : Tone) : g.mute.stage = g.stage := rfl
@[simp] theorem Tone.mute_rng (g : Tone) : g.mute.rng = g.rng := rfl
@[simp] theorem Tone.mute_clipCount (g : Tone) : g.mute.clipCount = g.clipCount := rfl
@[simp] theorem Tone.mute_sampleCount (g : Tone) : g.mute.sampleCount = g.sampleCount := rfl

/-! ### The phase advance (R264 to R266) -/

theorem Channel.advance_of_silent {c : Channel} (h : c.silent = true) : c.advance = c := by
  simp [Channel.advance, h]

theorem Channel.advance_of_noise {c : Channel} (h : c.noise = true) : c.advance = c := by
  simp [Channel.advance, h]

@[simp] theorem Channel.advance_silent (c : Channel) : c.advance.silent = c.silent := by
  unfold Channel.advance; split <;> rfl

@[simp] theorem Channel.advance_noise (c : Channel) : c.advance.noise = c.noise := by
  unfold Channel.advance; split <;> rfl

/-- Noise mode is `delta >= 0xFF00` (R265). -/
theorem Channel.noise_iff (c : Channel) : c.noise = true ↔ 0xFF00 ≤ c.delta.toNat := by
  have := c.delta.isLt
  simp only [Channel.noise, beq_iff_eq, ← BitVec.toNat_inj, BitVec.extractLsb'_toNat, Nat.shiftRight_eq_div_pow,
    BitVec.reduceToNat]
  omega

theorem Mix.channel_of_silent (P : ToneParams) (m : Mix) {c : Channel} (h : c.silent = true) :
    Mix.channel P m c = m := by
  simp [Mix.channel, h]

/-- After the zero-check a silent channel's `count` is 0 (R260). -/
theorem Channel.zeroCheck_count (c : Channel) (h : c.zeroCheck.silent = true) : c.zeroCheck.count = 0 := by
  unfold Channel.zeroCheck at h ⊢
  split
  · rfl
  · rename_i hs
    rw [if_neg hs] at h
    exact absurd h hs

/-! ### One sample (R263, R281) -/

/-- Every channel after a sample is its phase advance. -/
theorem Tone.produceSample_chan (P : ToneParams) (g : Tone) (c : Chan) :
    (g.produceSample P).tone.chan c = (g.chan c).advance := by
  simp only [Tone.produceSample, Tone.tick]
  split <;> simp [Tone.chan, Tone.mixed]

@[simp] theorem Tone.produceSample_stage (P : ToneParams) (g : Tone) : (g.produceSample P).tone.stage = g.stage := by
  simp only [Tone.produceSample, Tone.tick]
  split <;> rfl

theorem Tone.produceSample_rng (P : ToneParams) (g : Tone) : (g.produceSample P).tone.rng = (g.mix P).rng := by
  simp only [Tone.produceSample, Tone.tick]
  split <;> rfl

/-- The sample count wraps at 48000 (R281). -/
theorem Tone.produceSample_sampleCount (P : ToneParams) (g : Tone) :
    (g.produceSample P).tone.sampleCount = if g.sampleCount + 1 = 48000 then 0 else g.sampleCount + 1 := by
  by_cases h : g.sampleCount + 1 = 48000 <;> simp [Tone.produceSample, Tone.tick, Tone.mixed, h]

/-! ### Register writes, one lemma for each register number (R257 to R262) -/

theorem Tone.setRegister_chan_other (g : Tone) (draw sel data : Byte) (k : Chan) (h : k ≠ selectorChan sel) :
    (g.setRegister draw sel data).chan k = g.chan k := by
  unfold Tone.setRegister
  split <;> simp [Tone.chan_setChan, h] <;> rfl

theorem Tone.setRegister_stage (g : Tone) (draw sel data : Byte) (c : Chan) (k : StageKind)
    (hc : selectorChan sel = c) (hk : selectorReg sel = match k with | .deltaLow => 0 | .volLeft => 2) :
    g.setRegister draw sel data = { g with stage := { value := data, tag := some (c, k) } } := by
  subst hc
  cases k <;> simp [Tone.setRegister, hk]

theorem Tone.setRegister_delta (g : Tone) (draw sel data : Byte) (h : selectorReg sel = 1) :
    g.setRegister draw sel data =
      g.setChan (selectorChan sel)
        { g.chan (selectorChan sel) with delta := data ++ g.staged (selectorChan sel) .deltaLow draw } := by
  simp [Tone.setRegister, h]

theorem Tone.setRegister_volume (g : Tone) (draw sel data : Byte) (h : selectorReg sel = 3) :
    g.setRegister draw sel data =
      g.setChan (selectorChan sel) (Channel.zeroCheck
        { g.chan (selectorChan sel) with
          volumeLeft := g.staged (selectorChan sel) .volLeft draw, volumeRight := data }) := by
  simp [Tone.setRegister, h]

theorem Tone.setRegister_waveType (g : Tone) (draw sel data : Byte) (h : selectorReg sel = 4) :
    g.setRegister draw sel data =
      g.setChan (selectorChan sel)
        { g.chan (selectorChan sel) with waveType := data.extractLsb' 0 3 } := by
  simp [Tone.setRegister, h]

theorem Tone.setRegister_none (g : Tone) (draw sel data : Byte) (h : 5 ≤ (selectorReg sel).toNat) :
    g.setRegister draw sel data = g := by
  unfold Tone.setRegister
  split <;> first | omega | rfl

/-- No register write touches `rng` or the counters (R50, R51). -/
theorem Tone.setRegister_rest (g : Tone) (draw sel data : Byte) :
    (g.setRegister draw sel data).rng = g.rng ∧ (g.setRegister draw sel data).clipCount = g.clipCount ∧
      (g.setRegister draw sel data).sampleCount = g.sampleCount := by
  unfold Tone.setRegister
  split <;> exact ⟨rfl, rfl, rfl⟩

end Sys2Proof.Machine
end

