-- ==== Sys2Proof/Tests/Slice0.lean ====
section
/-! SUPPORT. The model's own tests: expected values from spec/95_test_vectors.md (the vector's id is in the docstring)
or written from the encoding tables of 30_encoding.md; and for every statement with hypotheses, states that meet them. -/

open Sys2Proof Sys2Proof.Machine

namespace Sys2Proof.Tests

/-! ### Helpers -/

/-- The bytes `code` stored from `a` upward. -/
def pokeAll : State → Word → List Byte → State
  | s, _, [] => s
  | s, a, v :: vs => pokeAll (s.poke a v) (a + 1) vs

/-- The convention of 95_test_vectors.md Part 2, the bytes at `R[n] = a` and `P = n`. -/
def seqAt (n : Reg) (a : Word) (code : List Byte) : State := { pokeAll (State.reset.setReg n a) a code with p := n }

/-- The same with `P = 0`. -/
def atPc (a : Word) (code : List Byte) : State := seqAt 0 a code

/-- `X = 2` and the byte `v` at `R[2] = 0x0200`. -/
def State.index (s : State) (v : Byte) : State := { (s.setReg 2 0x0200).poke 0x0200 v with x := 2 }

/-- The next state, when there is one. -/
def one (s : State) : State :=
  match step s with
  | .next t => t
  | .fault _ | .refused _ => s

/-- The bytes are exactly one instruction, `i`. -/
def reads (c : List Byte × Instr) : Bool :=
  match decode c.1 with
  | .ok (j, rest) => j == c.2 && rest.isEmpty
  | .error _ => false

/-- An environment whose next flag sample and next port byte are lined up. -/
def lined (efIn : List EfLevels) (portIn : List Byte) : Env := { efIn := efIn, portIn := portIn, draws := 0 }

/-- Nothing at `R[P]` matters: the host's moves are next. -/
def hosted (ms : List Move) : State := { State.reset with host := { State.reset.host with schedule := ms } }

/-! ### WellFormed: the three checks of R95 refuse their ill-formed terms -/

theorem test_wellFormed_ldn : (Instr.ldn 0).wellFormed = false ∧ (Instr.ldn 1).wellFormed = true := by decide
theorem test_wellFormed_out : (Instr.out 0).wellFormed = false ∧ (Instr.out 1).wellFormed = true := by decide
theorem test_wellFormed_inp : (Instr.inp 0).wellFormed = false ∧ (Instr.inp 1).wellFormed = true := by decide

/-! ### Decoding: every constructor from a word written out bit by bit (R91, R94) -/

theorem test_decode_memory :
    ([([0b00000001#8], .ldn 1), ([0b00001111#8], .ldn 15), ([0b01000000#8], .lda 0), ([0b01001010#8], .lda 10),
      ([0b11110000#8], .ldx), ([0b01110010#8], .ldxa), ([0b11111000#8, 0x77#8], .ldi 0x77),
      ([0b01010101#8], .str 5), ([0b01110011#8], .stxd)] : List (List Byte × Instr)).all reads = true := by
  decide

theorem test_decode_registers :
    ([([0b00011111#8], .inc 15), ([0b00100111#8], .dec 7), ([0b01100000#8], .irx), ([0b10001100#8], .glo 12),
      ([0b10011100#8], .ghi 12), ([0b10101100#8], .plo 12), ([0b10111100#8], .phi 12), ([0b11010011#8], .sep 3),
      ([0b11101111#8], .sex 15)] : List (List Byte × Instr)).all reads = true := by
  decide

theorem test_decode_logic :
    ([([0b11110001#8], .or), ([0b11110010#8], .and), ([0b11110011#8], .xor), ([0b11111001#8, 0x81#8], .ori 0x81),
      ([0b11111010#8, 0x0F#8], .ani 0x0F), ([0b11111011#8, 0xA5#8], .xri 0xA5), ([0b11110110#8], .shr),
      ([0b01110110#8], .shrc), ([0b11111110#8], .shl), ([0b01111110#8], .shlc)] :
        List (List Byte × Instr)).all reads = true := by
  decide

theorem test_decode_arithmetic :
    ([([0b11110100#8], .add), ([0b01110100#8], .adc), ([0b11110101#8], .sd), ([0b01110101#8], .sdb),
      ([0b11110111#8], .sm), ([0b01110111#8], .smb), ([0b11111100#8, 0x01#8], .adi 1),
      ([0b01111100#8, 0x02#8], .adci 2), ([0b11111101#8, 0x03#8], .sdi 3), ([0b01111101#8, 0x04#8], .sdbi 4),
      ([0b11111111#8, 0x05#8], .smi 5), ([0b01111111#8, 0x06#8], .smbi 6)] :
        List (List Byte × Instr)).all reads = true := by
  decide

theorem test_decode_shortBranch :
    ([([0b00110000#8, 0x40#8], .br 0x40), ([0b00110001#8, 0x41#8], .bq 0x41), ([0b00110010#8, 0x42#8], .bz 0x42),
      ([0b00110011#8, 0x43#8], .bdf 0x43), ([0b00110100#8, 0x44#8], .b1 0x44), ([0b00110101#8, 0x45#8], .b2 0x45),
      ([0b00110110#8, 0x46#8], .b3 0x46), ([0b00110111#8, 0x47#8], .b4 0x47),
      ([0b00111000#8, 0x48#8], .skp 0x48), ([0b00111001#8, 0x49#8], .bnq 0x49),
      ([0b00111010#8, 0x4A#8], .bnz 0x4A), ([0b00111011#8, 0x4B#8], .bnf 0x4B),
      ([0b00111100#8, 0x4C#8], .bn1 0x4C), ([0b00111101#8, 0x4D#8], .bn2 0x4D),
      ([0b00111110#8, 0x4E#8], .bn3 0x4E), ([0b00111111#8, 0x4F#8], .bn4 0x4F)] :
        List (List Byte × Instr)).all reads = true := by
  decide

theorem test_decode_long :
    ([([0b11000000#8, 0x12#8, 0x34#8], .lbr 0x12 0x34), ([0b11000001#8, 0x12#8, 0x34#8], .lbq 0x12 0x34),
      ([0b11000010#8, 0x12#8, 0x34#8], .lbz 0x12 0x34), ([0b11000011#8, 0x12#8, 0x34#8], .lbdf 0x12 0x34),
      ([0b11000100#8], .nop), ([0b11000101#8], .lsnq), ([0b11000110#8], .lsnz), ([0b11000111#8], .lsnf),
      ([0b11001000#8], .lskp), ([0b11001001#8, 0x12#8, 0x34#8], .lbnq 0x12 0x34),
      ([0b11001010#8, 0x12#8, 0x34#8], .lbnz 0x12 0x34), ([0b11001011#8, 0x12#8, 0x34#8], .lbnf 0x12 0x34),
      ([0b11001100#8], .lsie), ([0b11001101#8], .lsq), ([0b11001110#8], .lsz), ([0b11001111#8], .lsdf)] :
        List (List Byte × Instr)).all reads = true := by
  decide

theorem test_decode_control :
    ([([0b00000000#8], .idl), ([0b01111010#8], .req), ([0b01111011#8], .seq), ([0b01111000#8], .sav),
      ([0b01111001#8], .mark), ([0b01110000#8], .ret), ([0b01110001#8], .dis), ([0b01100001#8], .out 1),
      ([0b01100111#8], .out 7), ([0b01101001#8], .inp 1), ([0b01101111#8], .inp 7), ([0b01101000#8], .illegal)] :
        List (List Byte × Instr)).all reads = true := by
  decide

/-- Too few bytes: the decoder refuses by name (R90). -/
theorem test_decode_refuses :
    (match decode [] with | .error e => e == .noOpcode | .ok _ => false) = true ∧
    (match decode [0xC0#8, 0x12#8] with | .error e => e == .operandMissing 0xC0 | .ok _ => false) = true := by
  decide

/-! ### Memory reference (95_test_vectors.md 2.1) -/

/-- MR1. -/
theorem test_ldn : let t := one (((atPc 0x0100 [0x05]).setReg 5 0x1234).poke 0x1234 0xAB)
    t.d = 0xAB ∧ t.reg 5 = 0x1234 ∧ t.reg 0 = 0x0101 ∧ t.clk = 16 := by decide
/-- MR13: the program counter wraps. -/
theorem test_ldn_wrap : let t := one ((seqAt 3 0xFFFF [0x01]).poke 0 0x42)
    t.d = 0x42 ∧ t.reg 3 = 0 := by decide
/-- MR3. -/
theorem test_lda : let t := one (((atPc 0x0100 [0x45]).setReg 5 0xFFFF).poke 0xFFFF 0x11)
    t.d = 0x11 ∧ t.reg 5 = 0 ∧ t.reg 0 = 0x0101 := by decide
/-- MR4: `n = P`. -/
theorem test_lda_pc : let t := one (atPc 0x0100 [0x40, 0x99])
    t.d = 0x99 ∧ t.reg 0 = 0x0102 := by decide
/-- MR5. -/
theorem test_ldx : let t := one { ((atPc 0x0100 [0xF0]).setReg 3 0x0200).poke 0x0200 0x55 with x := 3, d := 0xAA }
    t.d = 0x55 ∧ t.reg 3 = 0x0200 ∧ t.reg 0 = 0x0101 := by decide
/-- MR6. -/
theorem test_ldxa : let t := one { ((atPc 0x0100 [0x72]).setReg 3 0xFFFF).poke 0xFFFF 0x01 with x := 3 }
    t.d = 1 ∧ t.reg 3 = 0 ∧ t.reg 0 = 0x0101 := by decide
/-- MR7. -/
theorem test_ldi : let t := one { atPc 0x0100 [0xF8, 0x00] with d := 0x77 }
    t.d = 0 ∧ t.reg 0 = 0x0102 ∧ t.clk = 16 := by decide
/-- MR9. -/
theorem test_str : let t := one { (atPc 0x0100 [0x5A]).setReg 10 0x0300 with d := 0xC3 }
    t.byteAt 0x0300 = 0xC3 ∧ t.reg 0 = 0x0101 := by decide
/-- MR12: the next step fetches the stored byte. -/
theorem test_str_pc : let t := one { atPc 0x0100 [0x50] with d := 0xC4 }
    t.byteAt 0x0101 = 0xC4 ∧ t.reg 0 = 0x0101 ∧ t.opcode = 0xC4 := by decide
/-- MR10. -/
theorem test_stxd : let t := one { (atPc 0x0100 [0x73]).setReg 2 0 with x := 2, d := 0x5A }
    t.byteAt 0 = 0x5A ∧ t.reg 2 = 0xFFFF := by decide

/-! ### Register operations (2.2) -/

/-- RO1. -/
theorem test_inc : let t := one ((atPc 0x0100 [0x1F]).setReg 15 0xFFFF)
    t.reg 15 = 0 ∧ t.reg 0 = 0x0101 ∧ t.clk = 16 := by decide
/-- RO2: `n = P`. -/
theorem test_inc_pc : (one (atPc 0x0100 [0x10])).reg 0 = 0x0102 := by decide
/-- RO3. -/
theorem test_dec : let t := one (atPc 0x0100 [0x27])
    t.reg 7 = 0xFFFF ∧ t.reg 0 = 0x0101 := by decide
/-- RO4: `n = P`. -/
theorem test_dec_pc : (one (atPc 0x0100 [0x20])).reg 0 = 0x0100 := by decide
/-- RO5. -/
theorem test_irx : let t := one { (atPc 0x0100 [0x60]).setReg 4 0x00FF with x := 4 }
    t.reg 4 = 0x0100 ∧ t.reg 0 = 0x0101 := by decide
/-- RO6. -/
theorem test_glo : (one ((atPc 0x0100 [0x8C]).setReg 12 0xBEEF)).d = 0xEF := by decide
/-- RO15: the incremented program counter is read. -/
theorem test_glo_pc : let t := one { atPc 0x12FF [0x80] with d := 0x55 }
    t.d = 0 ∧ t.reg 0 = 0x1300 := by decide
/-- RO7. -/
theorem test_ghi : (one ((atPc 0x0100 [0x9C]).setReg 12 0xBEEF)).d = 0xBE := by decide
/-- RO8. -/
theorem test_plo : (one { (atPc 0x0100 [0xAC]).setReg 12 0xBEEF with d := 0x12 }).reg 12 = 0xBE12 := by decide
/-- RO9. -/
theorem test_phi : (one { (atPc 0x0100 [0xBC]).setReg 12 0xBEEF with d := 0x12 }).reg 12 = 0x12EF := by decide
/-- RO12. -/
theorem test_sep : let t := one ((atPc 0x0100 [0xD3]).setReg 3 0x0400)
    t.p = 3 ∧ t.pc = 0x0400 ∧ t.reg 0 = 0x0101 := by decide
/-- RO14. -/
theorem test_sex : let t := one (atPc 0x0100 [0xEF])
    t.x = 15 ∧ t.p = 0 ∧ t.reg 0 = 0x0101 := by decide

/-! ### Logic and shifts (2.3): (opcode bytes, `mem[R[X]]`, `D`, `DF`, then `D` and `DF` after) -/

/-- One row of the tables of 2.3 and 2.4. -/
def gives (c : List Byte × Byte × Byte × Bool × Byte × Bool) : Bool :=
  let t := one { State.index (atPc 0x0100 c.1) c.2.1 with d := c.2.2.1, df := c.2.2.2.1 }
  t.d == c.2.2.2.2.1 && t.df == c.2.2.2.2.2 && t.reg 0 == 0x0100 + BitVec.ofNat 16 c.1.length && t.clk == 16

/-- LS1, LS2, LS3. -/
theorem test_logic_memory :
    ([([0xF1], 0x0F, 0xF0, true, 0xFF, true), ([0xF2], 0x3C, 0xF0, false, 0x30, false),
      ([0xF3], 0xFF, 0xA5, false, 0x5A, false)] :
        List (List Byte × Byte × Byte × Bool × Byte × Bool)).all gives = true := by decide

/-- LS4, LS5, LS6. -/
theorem test_logic_immediate :
    ([([0xF9, 0x81], 0, 0x18, false, 0x99, false), ([0xFA, 0x0F], 0, 0xA5, false, 0x05, false),
      ([0xFB, 0xA5], 0, 0xA5, true, 0x00, true)] :
        List (List Byte × Byte × Byte × Bool × Byte × Bool)).all gives = true := by decide

/-- LS7, LS8, LS9, LS10, LS12 to LS16. -/
theorem test_shifts :
    ([([0xF6], 0, 0x01, false, 0x00, true), ([0xF6], 0, 0x80, true, 0x40, false),
      ([0x76], 0, 0x01, false, 0x00, true), ([0x76], 0, 0x00, true, 0x80, false),
      ([0xFE], 0, 0x80, false, 0x00, true), ([0xFE], 0, 0x41, true, 0x82, false),
      ([0x7E], 0, 0x80, false, 0x00, true), ([0x7E], 0, 0x7F, true, 0xFF, false)] :
        List (List Byte × Byte × Byte × Bool × Byte × Bool)).all gives = true := by decide

/-! ### Arithmetic (2.4) -/

theorem test_arithmetic_memory :
    ([([0xF4], 0x01, 0xFF, false, 0x00, true), ([0xF4], 0x20, 0x10, true, 0x30, false),
      ([0x74], 0xFF, 0xFF, true, 0xFF, true), ([0x74], 0x01, 0x7F, true, 0x81, false),
      ([0xF5], 0xC6, 0x3A, false, 0x8C, true), ([0xF5], 0x01, 0xFF, true, 0x02, false),
      ([0x75], 0x00, 0xFF, false, 0x00, false), ([0x75], 0x20, 0x10, false, 0x0F, true),
      ([0xF7], 0x20, 0x10, false, 0xF0, false), ([0xF7], 0x01, 0xFF, false, 0xFE, true),
      ([0x77], 0x10, 0x20, false, 0x0F, true), ([0x77], 0xFF, 0x00, false, 0x00, false)] :
        List (List Byte × Byte × Byte × Bool × Byte × Bool)).all gives = true := by decide

theorem test_arithmetic_immediate :
    ([([0xFC, 0x01], 0, 0xFF, false, 0x00, true), ([0x7C, 0xFF], 0, 0x00, true, 0x00, true),
      ([0xFD, 0x20], 0, 0x10, false, 0x10, true), ([0x7D, 0x00], 0, 0x00, false, 0xFF, false),
      ([0xFF, 0x20], 0, 0x10, false, 0xF0, false), ([0x7F, 0x01], 0, 0x00, true, 0xFF, false)] :
        List (List Byte × Byte × Byte × Bool × Byte × Bool)).all gives = true := by decide

/-! ### Short branches (2.5), taken to 0x1240 or past to 0x1202 -/

/-- One row: the opcode, `Q`, `D`, `DF`, the four flags, and whether it branches. -/
def branches (c : Byte × Bool × Byte × Bool × EfLevels × Bool) : Bool :=
  let t := one { atPc 0x1200 [c.1, 0x40] with
    q := c.2.1, d := c.2.2.1, df := c.2.2.2.1, env := lined [c.2.2.2.2.1] [] }
  t.reg 0 == (if c.2.2.2.2.2 then 0x1240 else 0x1202) && t.clk == 16

/-- SB1 to SB12. -/
theorem test_shortBranch_state :
    ([(0x30, false, 0, false, ⟨false, false, false, false⟩, true), (0x38, false, 0, false, ⟨false, false, false, false⟩, false),
      (0x31, true, 0, false, ⟨false, false, false, false⟩, true), (0x31, false, 0, false, ⟨false, false, false, false⟩, false),
      (0x39, false, 0, false, ⟨false, false, false, false⟩, true), (0x32, false, 0, false, ⟨false, false, false, false⟩, true),
      (0x32, false, 1, false, ⟨false, false, false, false⟩, false),
      (0x3A, false, 0x80, false, ⟨false, false, false, false⟩, true),
      (0x33, false, 0, true, ⟨false, false, false, false⟩, true), (0x3B, false, 0, true, ⟨false, false, false, false⟩, false),
      (0x3B, false, 0, false, ⟨false, false, false, false⟩, true)] :
        List (Byte × Bool × Byte × Bool × EfLevels × Bool)).all branches = true := by decide

/-- SB13 to SB22. -/
theorem test_shortBranch_flags :
    ([(0x34, false, 0, false, ⟨true, false, false, false⟩, true), (0x34, false, 0, false, ⟨false, true, true, true⟩, false),
      (0x3C, false, 0, false, ⟨false, true, true, true⟩, true), (0x35, false, 0, false, ⟨false, true, false, false⟩, true),
      (0x36, false, 0, false, ⟨false, false, true, false⟩, true), (0x37, false, 0, false, ⟨false, false, false, true⟩, true),
      (0x3D, false, 0, false, ⟨true, false, true, true⟩, true), (0x3E, false, 0, false, ⟨true, true, false, true⟩, true),
      (0x3F, false, 0, false, ⟨true, true, true, false⟩, true), (0x3F, false, 0, false, ⟨false, false, false, true⟩, false)] :
        List (Byte × Bool × Byte × Bool × EfLevels × Bool)).all branches = true := by decide

/-- SB24: the page is that of the operand byte. -/
theorem test_br_page : (one (atPc 0x12FE [0x30, 0x10])).reg 0 = 0x1210 := by decide
/-- SB25. -/
theorem test_br_next_page : (one (atPc 0x12FF [0x30, 0x10])).reg 0 = 0x1310 := by decide
/-- SB26. -/
theorem test_skp_page : (one (atPc 0x12FE [0x38, 0x10])).reg 0 = 0x1300 := by decide

/-! ### Long branches and skips (2.6) -/

/-- One row: the opcode bytes, `Q`, `D`, `DF`, `IE`, and `R[0]` after. -/
def goes (c : List Byte × Bool × Byte × Bool × Bool × Word) : Bool :=
  let t := one { atPc 0x0100 c.1 with q := c.2.1, d := c.2.2.1, df := c.2.2.2.1, ie := c.2.2.2.2.1 }
  t.reg 0 == c.2.2.2.2.2 && t.clk == 24

/-- LB1 to LB13. -/
theorem test_longBranch :
    ([([0xC0, 0x12, 0x34], false, 0, false, false, 0x1234), ([0xC1, 0x12, 0x34], true, 0, false, false, 0x1234),
      ([0xC1, 0x12, 0x34], false, 0, false, false, 0x0103), ([0xC2, 0x12, 0x34], false, 0, false, false, 0x1234),
      ([0xC2, 0x12, 0x34], false, 5, false, false, 0x0103), ([0xC3, 0x12, 0x34], false, 0, true, false, 0x1234),
      ([0xC9, 0x12, 0x34], true, 0, false, false, 0x0103), ([0xCA, 0x12, 0x34], false, 5, false, false, 0x1234),
      ([0xCB, 0x12, 0x34], false, 0, true, false, 0x0103)] :
        List (List Byte × Bool × Byte × Bool × Bool × Word)).all goes = true := by decide

/-- LB14 to LB29. -/
theorem test_longSkip :
    ([([0xC4], false, 0, false, false, 0x0101), ([0xC8], false, 0, false, false, 0x0103),
      ([0xC5], false, 0, false, false, 0x0103), ([0xC5], true, 0, false, false, 0x0101),
      ([0xC6], false, 1, false, false, 0x0103), ([0xC7], false, 0, true, false, 0x0101),
      ([0xCC], false, 0, false, true, 0x0103), ([0xCC], false, 0, false, false, 0x0101),
      ([0xCD], true, 0, false, false, 0x0103), ([0xCE], false, 0, false, false, 0x0103),
      ([0xCE], false, 9, false, false, 0x0101), ([0xCF], false, 0, true, false, 0x0103)] :
        List (List Byte × Bool × Byte × Bool × Bool × Word)).all goes = true := by decide

/-- LB31: not taken across the wrap. -/
theorem test_lbdf_wrap : (one (atPc 0xFFFE [0xC3, 0xAB, 0xCD])).reg 0 = 0x0001 := by decide
/-- LB32. -/
theorem test_lskp_wrap : (one (atPc 0xFFFE [0xC8])).reg 0 = 0x0001 := by decide

/-! ### Control, linkage, input and output (2.7) -/

/-- CT1. -/
theorem test_idl : let t := one (atPc 0x0005 [0x00])
    t.status = .halted ∧ t.reg 0 = 0x0006 ∧ t.clk = 0 ∧ t.events.head? = some .halt := by decide
/-- CT3. -/
theorem test_illegal : let t := one (seqAt 4 0xFFFF [0x68])
    t.status = .illegalOpcode 0x68 0xFFFF ∧ t.reg 4 = 0 ∧ t.clk = 0 ∧
      t.events.head? = some (.illegalOpcode 0x68 0xFFFF) := by decide
/-- CT5: notified although unchanged. -/
theorem test_req : let t := one (atPc 0x0100 [0x7A])
    t.q = false ∧ t.events.head? = some (.notifyQ false) := by decide
/-- CT6. -/
theorem test_seq : let t := one (atPc 0x0100 [0x7B])
    t.q = true ∧ t.events.head? = some (.notifyQ true) := by decide
/-- CT8. -/
theorem test_sav : (one { (atPc 0x0100 [0x78]).setReg 2 0x00F0 with x := 2, t := 0x23 }).byteAt 0x00F0 = 0x23 := by
  decide
/-- CT9. -/
theorem test_mark : let t := one { (seqAt 3 0x0300 [0x79]).setReg 2 0x01FF with x := 5 }
    t.t = 0x53 ∧ t.x = 3 ∧ t.byteAt 0x01FF = 0x53 ∧ t.reg 2 = 0x01FE ∧ t.reg 3 = 0x0301 := by decide
/-- CT11: `P = 2`. -/
theorem test_mark_pc : let t := one { seqAt 2 0x0400 [0x79] with x := 7 }
    t.t = 0x72 ∧ t.x = 2 ∧ t.byteAt 0x0401 = 0x72 ∧ t.reg 2 = 0x0400 := by decide
/-- CT12. -/
theorem test_ret : let t := one { ((atPc 0x0100 [0x70]).setReg 2 0x01FE).poke 0x01FE 0x53 with x := 2 }
    t.reg 2 = 0x01FF ∧ t.x = 5 ∧ t.p = 3 ∧ t.ie = true := by decide
/-- CT15: the increment uses the old `X`. -/
theorem test_dis : let t := one { ((atPc 0x0100 [0x71]).setReg 2 0x0200).poke 0x0200 0x2A with x := 2, ie := true }
    t.reg 2 = 0x0201 ∧ t.x = 2 ∧ t.p = 10 ∧ t.ie = false := by decide
/-- CT13: `X = P`. -/
theorem test_dis_pc : let t := one { seqAt 3 0x0010 [0x71, 0x23] with x := 3 }
    t.reg 3 = 0x0012 ∧ t.x = 2 ∧ t.p = 3 := by decide
/-- CT16. -/
theorem test_out : let t := one { State.index (atPc 0x0100 [0x64]) 0x41 with d := 0x99 }
    t.events.head? = some (.outPort 4 0x41) ∧ t.reg 2 = 0x0201 ∧ t.d = 0x99 := by decide
/-- CT17: immediate output. -/
theorem test_out_pc : let t := one (atPc 0x0100 [0x61, 0x55])
    t.events.head? = some (.outPort 1 0x55) ∧ t.reg 0 = 0x0102 := by decide
/-- CT19. -/
theorem test_inp : let t := one { (atPc 0x0100 [0x69]).setReg 2 0x0300 with x := 2, env := lined [] [0x0D] }
    t.d = 0x0D ∧ t.byteAt 0x0300 = 0x0D ∧ t.reg 2 = 0x0300 := by decide
/-- CT21: the input byte becomes the next opcode. -/
theorem test_inp_pc : let t := one { atPc 0x0100 [0x6A] with env := lined [] [0xC4] }
    t.d = 0xC4 ∧ t.opcode = 0xC4 := by decide

/-! ### Run (2.8) -/

/-- The memory and registers of table RUN. -/
def runTable : State := atPc 0x0100 [0x11, 0x11, 0xC4, 0x11]

/-- The value `Run` returns, `R[1]` and `R[0]` after. -/
def returns (b : Int) : Option (Int × Word × Word) :=
  match runCall b runTable with
  | .returned v t => some (v, t.reg 1, t.reg 0)
  | .stopped _ _ | .refused _ => none

/-- RUN1, RUN3. -/
theorem test_run_one_and_two :
    returns 1 = some (15, 1, 0x0101) ∧ returns 17 = some (15, 2, 0x0102) := by decide
/-- RUN5: the largest overshoot. -/
theorem test_run_largest_overshoot : returns 33 = some (23, 2, 0x0103) := by decide
/-- RUN7, RUN8: no instruction is executed. -/
theorem test_run_no_budget : returns 0 = some (0, 0, 0x0100) ∧ returns (-5) = some (5, 0, 0x0100) := by decide

/-! ### The tone generator (2.9) -/

/-- `setup` of 2.9 for channel `c`. -/
def setup (c : Chan) (delta : Word) (vl vr ty : Byte) (g : Tone) : Tone :=
  ((((g.setRegister 0 (c ++ 0#3) (lo delta)).setRegister 0 (c ++ 1#3) (hi delta)).setRegister 0 (c ++ 2#3) vl)
    |>.setRegister 0 (c ++ 3#3) vr).setRegister 0 (c ++ 4#3) ty

/-- The generator with a given `rng`. -/
def toneWith (rng : BitVec 17) : Tone := { Tone.powerOn with rng := rng }

/-- The pair of one sample. -/
def pair (g : Tone) : Int × Int :=
  ((g.produceSample ToneParams.default).left, (g.produceSample ToneParams.default).right)

/-- TG1: selector decoding. -/
theorem test_setRegister_selector :
    ((toneWith 0).setRegister 0 0x1C 0xFD).chan 3 = { Channel.zero with waveType := 5 } ∧
    (toneWith 0).setRegister 0 0xFF 0x12 = toneWith 0 ∧
    ((((toneWith 0).setRegister 0 0xF8 0x34).setRegister 0 0xF9 0x12).chan 31).delta = 0x1234 := by decide

/-- TG8: a mismatched commit takes the draw, and the latch keeps its tag. -/
theorem test_setRegister_staging :
    let g := (((toneWith 0).setRegister 0xEE 0x08 0x34).setRegister 0xEE 0x10 0x78).setRegister 0xEE 0x09 0x12
    (g.chan 1).delta = 0x12EE ∧ ((g.setRegister 0xEE 0x11 0x56).chan 2).delta = 0x5678 := by decide

/-- TG2: the zero-check. -/
theorem test_setRegister_zeroCheck :
    let g := ((setup 3 0x1234 10 20 0 (toneWith 0)).produceSample ToneParams.default).tone
    (g.chan 3).count = 0x1234 ∧
    (((g.setRegister 0 0x1A 0).setRegister 0 0x1B 0).chan 3) =
      { Channel.zero with delta := 0x1234 } := by decide

/-- TG4: the row of `count = 0xA000`, all eight types. -/
theorem test_wave :
    (List.range 8).map (fun ty => wave ToneParams.default (BitVec.ofNat 3 ty) 0xA000) =
      [8192, -8192, -8192, -8192, -16383, -4097, 16383, 4096] := by decide

/-- TG4: the row of `count = 0xE000`. -/
theorem test_wave_high :
    (List.range 8).map (fun ty => wave ToneParams.default (BitVec.ofNat 3 ty) 0xE000) =
      [8192, 8192, 8192, 8192, -16383, -12289, 16383, 12288] := by decide

/-- TG5: one sample of channel 31, type 5. -/
theorem test_produceSample : pair (setup 31 0x2000 255 128 5 (toneWith 0)) = (6119, 3071) := by decide

/-- TG6: noise, one LFSR advance. -/
theorem test_produceSample_noise :
    let g := setup 4 0xFF00 100 50 3 (toneWith 0x12345)
    pair g = (-1600, -800) ∧ (g.produceSample ToneParams.default).tone.rng = 0x191A2 := by decide

/-- TG7: nine loud channels clip; the eighth alone does not. -/
theorem test_produceSample_clips :
    attenuate (9 * (-8192 * 255)) = -36720 ∧ clampSample (-36720) = -32768 ∧ clips (-36720) = 1 ∧
    clampSample (8 * (8192 * 255) / 512) = 32640 ∧ clips 32640 = 0 := by decide

/-- TG7: the 48000th sample reports and clears. -/
theorem test_tick :
    let g : Tone := { toneWith 0 with clipCount := 20, sampleCount := 47999 }
    g.tickReport = some 20 ∧ g.tick.clipCount = 0 ∧ g.tick.sampleCount = 0 ∧
    ({ g with sampleCount := 47998 } : Tone).tickReport = none := by decide

/-! ### The host's moves -/

/-- R253: `Mute`. -/
theorem test_mute :
    ((one { hosted [.mute] with tone := setup 3 0x1234 10 20 0 (toneWith 0) }).tone.chan 3) = Channel.zero := by decide

/-- R330, R331: `Reset` after a halt. -/
theorem test_reset :
    let t := one { hosted [.reset] with status := .halted, d := 5, x := 3, mem := [(7, 9)] }
    t.status = .running ∧ t.d = 0 ∧ t.x = 0 ∧ t.byteAt 7 = 9 := by decide

/-- A stopped engine takes no step; `Run` before `Reset` is refused (R33, R55). -/
theorem test_stops :
    (match step { State.reset with status := .halted } with | .fault f => f == .halted | _ => false) = true ∧
    (match step { hosted [.run 1] with host := { schedule := [.run 1], phase := .stepping, resetDone := false } } with
      | .refused r => r == .runBeforeReset | _ => false) = true := by decide

/-- R56: between the return of one `Run` and the entry of the next an engine turn executes nothing. -/
theorem test_between_runs :
    step (runTable.setPhase .returned) = .next (runTable.setPhase .returned) ∧ (one runTable).reg 1 = 1 :=
  ⟨rfl, by decide⟩

/-! ### States and operands that meet the hypotheses of the statements -/

/-- `EngineReady` at reset with any program at `R[P]`: no `Run` call made yet. -/
theorem ready_of_fields {s : State} (h1 : s.host.schedule = []) (h2 : s.host.resetDone = true)
    (h3 : s.status = .running) (h4 : s.host.phase = .stepping) : EngineReady s :=
  ⟨h1, h2, h3, by rw [h4]; nofun, by rw [h4]; nofun⟩

/-- `EngineReady` inside a `Run` call, one unit below its budget. -/
theorem witness_EngineReady_in_run :
    EngineReady { State.reset with clk := 15, host := { schedule := [], phase := .running 16, resetDone := true } } :=
  ⟨rfl, rfl, rfl, by decide, by intro b hb; cases hb; decide⟩

theorem witness_DecodeOfEncodeIsTheInstruction :
    (Instr.ldn 1).wellFormed = true ∧ (Instr.ldn 15).wellFormed = true ∧ (Instr.out 1).wellFormed = true ∧
    (Instr.out 7).wellFormed = true ∧ (Instr.inp 1).wellFormed = true ∧ (Instr.inp 7).wellFormed = true ∧
    (Instr.lbr 0xFF 0x00).wellFormed = true ∧ (Instr.skp 0xFF).wellFormed = true := by decide

theorem witness_OnlyOpcode68IsIllegal :
    (EngineReady (atPc 0x0100 [0x68]) ∧ (atPc 0x0100 [0x68]).opcode = 0x68#8) ∧
    (EngineReady (atPc 0x0100 [0x69]) ∧ (atPc 0x0100 [0x69]).opcode ≠ 0x68#8) :=
  ⟨⟨ready_of_fields rfl rfl rfl rfl, by decide⟩, ready_of_fields rfl rfl rfl rfl, by decide⟩

/-- Three lengths, the last across the wrap of `R[P]`; an instruction that stops the engine; and a stopped engine. -/
theorem witness_StepRunsTheDecodedInstruction :
    (EngineReady (atPc 0x0100 [0x05]) ∧ BytesAtPc (.ldn 5) (atPc 0x0100 [0x05])) ∧
    (EngineReady (atPc 0x0100 [0xF8, 0x77]) ∧ BytesAtPc (.ldi 0x77) (atPc 0x0100 [0xF8, 0x77])) ∧
    (EngineReady (atPc 0xFFFE [0xC0, 0xAB, 0xCD]) ∧ BytesAtPc (.lbr 0xAB 0xCD) (atPc 0xFFFE [0xC0, 0xAB, 0xCD])) ∧
    (EngineReady (atPc 0xFFFF [0x68]) ∧ BytesAtPc .illegal (atPc 0xFFFF [0x68])) ∧
    (let s : State := { State.reset with status := .halted }
     s.host.schedule = [] ∧ s.host.phase = .stepping ∧ s.host.resetDone = true ∧ s.status ≠ .running) := by
  refine ⟨⟨ready_of_fields rfl rfl rfl rfl, ?_⟩, ⟨ready_of_fields rfl rfl rfl rfl, ?_⟩,
    ⟨ready_of_fields rfl rfl rfl rfl, ?_⟩, ⟨ready_of_fields rfl rfl rfl rfl, ?_⟩, by decide⟩ <;>
  · unfold BytesAtPc
    decide

theorem witness_OnlyTwoOpcodesStop :
    (EngineReady (atPc 0x0100 [0x00]) ∧ (atPc 0x0100 [0x00]).opcode = 0x00#8) ∧
    (EngineReady (atPc 0x0100 [0x68]) ∧ (atPc 0x0100 [0x68]).opcode = 0x68#8) ∧
    (EngineReady (atPc 0x0100 [0x01]) ∧ (atPc 0x0100 [0x01]).opcode = 0x01#8) :=
  ⟨⟨ready_of_fields rfl rfl rfl rfl, by decide⟩, ⟨ready_of_fields rfl rfl rfl rfl, by decide⟩,
    ready_of_fields rfl rfl rfl rfl, by decide⟩

theorem witness_StepCostDependsOnOpcodeOnly :
    (EngineReady (atPc 0x0100 [0xBF]) ∧ (atPc 0x0100 [0xBF]).opcode.toNat / 16 ≠ 12) ∧
    (EngineReady (atPc 0x0100 [0xC0]) ∧ (atPc 0x0100 [0xC0]).opcode.toNat / 16 = 12) ∧
    (EngineReady (atPc 0x0100 [0xCF]) ∧ (atPc 0x0100 [0xCF]).opcode.toNat / 16 = 12) ∧
    (EngineReady (atPc 0x0100 [0xD0]) ∧ (atPc 0x0100 [0xD0]).opcode.toNat / 16 ≠ 12) ∧
    (EngineReady (atPc 0x0100 [0x00]) ∧ (atPc 0x0100 [0x00]).opcode = 0x00#8) :=
  ⟨⟨ready_of_fields rfl rfl rfl rfl, by decide⟩, ⟨ready_of_fields rfl rfl rfl rfl, by decide⟩,
    ⟨ready_of_fields rfl rfl rfl rfl, by decide⟩, ⟨ready_of_fields rfl rfl rfl rfl, by decide⟩,
    ready_of_fields rfl rfl rfl rfl, by decide⟩

/-- Each store with the byte after its opcode as its address, through `R[P]` itself and through another register; the
last address is across the wrap of `R[P]`. -/
theorem witness_StoreIsSeenByNextFetch :
    let at' (op : Byte) (p x n : Reg) : State :=
      { (seqAt p 0xFFFF [op]).setReg n (if n = p then 0xFFFF else 0) with x := x }
    (∀ op p x n, EngineReady (at' op p x n)) ∧
    (∀ n ∈ [15#4, 3#4], (at' (0x5#4 ++ n) 15 0 n).opcode = 0x5#4 ++ n ∧
      (at' (0x5#4 ++ n) 15 0 n).fetchOpcode.reg n = (at' (0x5#4 ++ n) 15 0 n).pc + 1) ∧
    (∀ op ∈ [0x73#8, 0x78#8, 0x6F#8], ∀ n ∈ [15#4, 3#4], let s := at' op 15 n n
      s.opcode = op ∧ s.x = n ∧ s.fetchOpcode.reg s.x = s.pc + 1) ∧
    (∀ p ∈ [2#4, 15#4], let s := at' 0x79 p 0 2
      s.opcode = 0x79#8 ∧ s.p = p ∧ s.fetchOpcode.reg 2 = s.pc + 1) ∧
    (7#3 ≠ 0#3 ∧ 0x6F#8 = 0b01101#5 ++ 7#3) := by
  refine ⟨fun op p x n => ready_of_fields rfl rfl rfl rfl, ?_⟩
  decide

/-- LoadsWithoutAdvance, OutWritesPort and InpStoresPortByte: a register and a port number with an encoding, and a lined-up byte. -/
theorem witness_form_restrictions :
    (1#4 ≠ 0#4 ∧ 15#4 ≠ 0#4) ∧ (1#3 ≠ 0#3 ∧ 7#3 ≠ 0#3) ∧
    (State.reset.env.portIn = [] ∧ ({ State.reset with env := lined [] [0x0D] } : State).env.portIn = 0x0D :: []) := by
  decide

theorem witness_LogicWithMemory :
    let rows : List (Instr × Byte × (Bool → Bool → Bool)) :=
      [(Instr.or, 0xF1#8, (· || ·)), (Instr.and, 0xF2#8, (· && ·)), (Instr.xor, 0xF3#8, (· ^^ ·))]
    (Instr.or, 0xF1#8, (· || ·)) ∈ rows ∧ (Instr.and, 0xF2#8, (· && ·)) ∈ rows ∧
    (Instr.xor, 0xF3#8, (· ^^ ·)) ∈ rows :=
  ⟨.head _, .tail _ (.head _), .tail _ (.tail _ (.head _))⟩

theorem witness_LogicImmediate :
    let rows : List (Instr × Byte × (Bool → Bool → Bool)) :=
      [(Instr.ori 0xFF, 0xF9#8, (· || ·)), (Instr.ani 0xFF, 0xFA#8, (· && ·)), (Instr.xri 0xFF, 0xFB#8, (· ^^ ·))]
    (Instr.ori 0xFF, 0xF9#8, (· || ·)) ∈ rows ∧ (Instr.ani 0xFF, 0xFA#8, (· && ·)) ∈ rows ∧
    (Instr.xri 0xFF, 0xFB#8, (· ^^ ·)) ∈ rows :=
  ⟨.head _, .tail _ (.head _), .tail _ (.tail _ (.head _))⟩

theorem witness_RotatesGoThroughDF :
    (Instr.shrc = .shrc ∨ Instr.shrc = .shlc) ∧ (Instr.shlc = .shrc ∨ Instr.shlc = .shlc) := by decide

/-- `mem[R[X]] = 0xC6`, `D = 0x3A`, `DF = 0`: the four rows' own operands. -/
theorem witness_SubtractWithMemory :
    let s : State := { State.index State.reset 0xC6 with d := 0x3A }
    let rows : List (Instr × Byte × Int × Int × Int) :=
      [(Instr.sd, 0xF5#8, ((s.byteAt (s.reg s.x)).toNat : Int), (s.d.toNat : Int), 0),
       (Instr.sdb, 0x75#8, ((s.byteAt (s.reg s.x)).toNat : Int), (s.d.toNat : Int), 1 - (s.df.toNat : Int)),
       (Instr.sm, 0xF7#8, (s.d.toNat : Int), ((s.byteAt (s.reg s.x)).toNat : Int), 0),
       (Instr.smb, 0x77#8, (s.d.toNat : Int), ((s.byteAt (s.reg s.x)).toNat : Int), 1 - (s.df.toNat : Int))]
    (Instr.sd, 0xF5#8, 0xC6, 0x3A, 0) ∈ rows ∧ (Instr.sdb, 0x75#8, 0xC6, 0x3A, 1) ∈ rows ∧
    (Instr.sm, 0xF7#8, 0x3A, 0xC6, 0) ∈ rows ∧ (Instr.smb, 0x77#8, 0x3A, 0xC6, 1) ∈ rows := by
  decide

/-- The operand 0xFF, `D = 0`, `DF = 0`. -/
theorem witness_ImmediateArithmetic :
    let s := State.reset
    let v : Byte := 0xFF
    let rows : List (Instr × Byte × Int) :=
      [(Instr.adi v, 0xFC#8, (s.d.toNat : Int) + v.toNat - 256),
       (Instr.adci v, 0x7C#8, (s.d.toNat : Int) + v.toNat + s.df.toNat - 256),
       (Instr.sdi v, 0xFD#8, (v.toNat : Int) - s.d.toNat),
       (Instr.sdbi v, 0x7D#8, (v.toNat : Int) - s.d.toNat - (1 - (s.df.toNat : Int))),
       (Instr.smi v, 0xFF#8, (s.d.toNat : Int) - v.toNat),
       (Instr.smbi v, 0x7F#8, (s.d.toNat : Int) - v.toNat - (1 - (s.df.toNat : Int)))]
    (Instr.adi 0xFF, 0xFC#8, -1) ∈ rows ∧ (Instr.adci 0xFF, 0x7C#8, -1) ∈ rows ∧
    (Instr.sdi 0xFF, 0xFD#8, 255) ∈ rows ∧ (Instr.sdbi 0xFF, 0x7D#8, 254) ∈ rows ∧
    (Instr.smi 0xFF, 0xFF#8, -255) ∈ rows ∧ (Instr.smbi 0xFF, 0x7F#8, -256) ∈ rows := by
  decide

/-- BQ, BNQ, BZ, BNZ, BDF and BNF with their condition true and false; BR and SKP have one case each. -/
theorem witness_ShortBranchesOnState :
    let P (s : State) (i : Instr) (op : Byte) (c : Bool) : Prop :=
      (i = .br 0x40 ∧ op = 0x30#8 ∧ c = true) ∨ (i = .bq 0x40 ∧ op = 0x31#8 ∧ c = s.q) ∨
      (i = .bz 0x40 ∧ op = 0x32#8 ∧ c = decide (s.d.toNat = 0)) ∨ (i = .bdf 0x40 ∧ op = 0x33#8 ∧ c = s.df) ∨
      (i = .skp 0x40 ∧ op = 0x38#8 ∧ c = false) ∨ (i = .bnq 0x40 ∧ op = 0x39#8 ∧ c = !s.q) ∨
      (i = .bnz 0x40 ∧ op = 0x3A#8 ∧ c = decide (s.d.toNat ≠ 0)) ∨ (i = .bnf 0x40 ∧ op = 0x3B#8 ∧ c = !s.df)
    let on : State := { State.reset with q := true, df := true }
    let off : State := { State.reset with d := 1 }
    P on (.br 0x40) 0x30 true ∧ P on (.skp 0x40) 0x38 false ∧ P on (.bq 0x40) 0x31 true ∧
    P off (.bq 0x40) 0x31 false ∧ P on (.bz 0x40) 0x32 true ∧ P off (.bz 0x40) 0x32 false ∧
    P on (.bdf 0x40) 0x33 true ∧ P off (.bdf 0x40) 0x33 false ∧ P on (.bnq 0x40) 0x39 false ∧
    P off (.bnq 0x40) 0x39 true ∧ P on (.bnz 0x40) 0x3A false ∧ P off (.bnz 0x40) 0x3A true ∧
    P on (.bnf 0x40) 0x3B false ∧ P off (.bnf 0x40) 0x3B true := by
  simp [State.reset]

theorem witness_ShortBranchesOnFlags :
    let rows (a8 : Byte) : List (Instr × Byte × ExtFlag × Bool) :=
      [(Instr.b1 a8, 0x34#8, .ef1, true), (Instr.b2 a8, 0x35#8, .ef2, true), (Instr.b3 a8, 0x36#8, .ef3, true),
       (Instr.b4 a8, 0x37#8, .ef4, true), (Instr.bn1 a8, 0x3C#8, .ef1, false), (Instr.bn2 a8, 0x3D#8, .ef2, false),
       (Instr.bn3 a8, 0x3E#8, .ef3, false), (Instr.bn4 a8, 0x3F#8, .ef4, false)]
    (Instr.b1 0x40, 0x34#8, .ef1, true) ∈ rows 0x40 ∧ (Instr.b4 0xFF, 0x37#8, .ef4, true) ∈ rows 0xFF ∧
    (Instr.bn1 0x00, 0x3C#8, .ef1, false) ∈ rows 0x00 ∧ (Instr.bn4 0x40, 0x3F#8, .ef4, false) ∈ rows 0x40 ∧
    (State.reset.env.efIn = [] ∧ ({ State.reset with env := lined [⟨true, false, true, false⟩] [] } : State).env.efIn =
      ⟨true, false, true, false⟩ :: []) := by
  decide

/-- LBR, and LBQ, LBZ, LBDF, LBNQ, LBNZ and LBNF with their condition true and false. -/
theorem witness_LongBranchesSetPc :
    let P (s : State) (i : Instr) (op : Byte) (c : Bool) : Prop :=
      (i = .lbr 0x12 0x34 ∧ op = 0xC0#8 ∧ c = true) ∨ (i = .lbq 0x12 0x34 ∧ op = 0xC1#8 ∧ c = s.q) ∨
      (i = .lbz 0x12 0x34 ∧ op = 0xC2#8 ∧ c = decide (s.d.toNat = 0)) ∨
      (i = .lbdf 0x12 0x34 ∧ op = 0xC3#8 ∧ c = s.df) ∨ (i = .lbnq 0x12 0x34 ∧ op = 0xC9#8 ∧ c = !s.q) ∨
      (i = .lbnz 0x12 0x34 ∧ op = 0xCA#8 ∧ c = decide (s.d.toNat ≠ 0)) ∨
      (i = .lbnf 0x12 0x34 ∧ op = 0xCB#8 ∧ c = !s.df)
    let on : State := { State.reset with q := true, df := true }
    let off : State := { State.reset with d := 1 }
    P on (.lbr 0x12 0x34) 0xC0 true ∧ P on (.lbq 0x12 0x34) 0xC1 true ∧ P off (.lbq 0x12 0x34) 0xC1 false ∧
    P on (.lbz 0x12 0x34) 0xC2 true ∧ P off (.lbz 0x12 0x34) 0xC2 false ∧ P on (.lbdf 0x12 0x34) 0xC3 true ∧
    P off (.lbdf 0x12 0x34) 0xC3 false ∧ P on (.lbnq 0x12 0x34) 0xC9 false ∧ P off (.lbnq 0x12 0x34) 0xC9 true ∧
    P on (.lbnz 0x12 0x34) 0xCA false ∧ P off (.lbnz 0x12 0x34) 0xCA true ∧ P on (.lbnf 0x12 0x34) 0xCB false ∧
    P off (.lbnf 0x12 0x34) 0xCB true := by
  simp [State.reset]

/-- LSKP, and the seven conditional long skips with their condition true and false. -/
theorem witness_LongSkipsPassTwoBytes :
    let P (s : State) (i : Instr) (op : Byte) (c : Bool) : Prop :=
      (i = .lsnq ∧ op = 0xC5#8 ∧ c = !s.q) ∨ (i = .lsnz ∧ op = 0xC6#8 ∧ c = decide (s.d.toNat ≠ 0)) ∨
      (i = .lsnf ∧ op = 0xC7#8 ∧ c = !s.df) ∨ (i = .lskp ∧ op = 0xC8#8 ∧ c = true) ∨
      (i = .lsie ∧ op = 0xCC#8 ∧ c = s.ie) ∨ (i = .lsq ∧ op = 0xCD#8 ∧ c = s.q) ∨
      (i = .lsz ∧ op = 0xCE#8 ∧ c = decide (s.d.toNat = 0)) ∨ (i = .lsdf ∧ op = 0xCF#8 ∧ c = s.df)
    let on : State := { State.reset with q := true, df := true, ie := true }
    let off : State := { State.reset with d := 1 }
    P on .lskp 0xC8 true ∧ P on .lsnq 0xC5 false ∧ P off .lsnq 0xC5 true ∧ P on .lsnz 0xC6 false ∧
    P off .lsnz 0xC6 true ∧ P on .lsnf 0xC7 false ∧ P off .lsnf 0xC7 true ∧ P on .lsie 0xCC true ∧
    P off .lsie 0xCC false ∧ P on .lsq 0xCD true ∧ P off .lsq 0xCD false ∧ P on .lsz 0xCE true ∧
    P off .lsz 0xCE false ∧ P on .lsdf 0xCF true ∧ P off .lsdf 0xCF false := by
  simp [State.reset]

theorem witness_RetAndDisPopXAndP :
    let P (i : Instr) (op : Byte) (enable : Bool) : Prop :=
      (i = .ret ∧ op = 0x70#8 ∧ enable = true) ∨ (i = .dis ∧ op = 0x71#8 ∧ enable = false)
    P .ret 0x70 true ∧ P .dis 0x71 false := by decide

theorem witness_StoppingStepOnlyFetches :
    (EngineReady (atPc 0xFFFF [0x00]) ∧ (atPc 0xFFFF [0x00]).opcode = 0x00#8) ∧
    (EngineReady (atPc 0xFFFF [0x68]) ∧ (atPc 0xFFFF [0x68]).opcode = 0x68#8 ∧
      Status.illegalOpcode 0x68#8 0xFFFF = .illegalOpcode 0x68#8 (atPc 0xFFFF [0x68]).pc) :=
  ⟨⟨ready_of_fields rfl rfl rfl rfl, by decide⟩, ready_of_fields rfl rfl rfl rfl, by decide, by decide⟩

/-- Stopped, and the step is a host's `Reset`, a memory write, a tone operation, or the return of a `Run` call. -/
theorem witness_StoppedEngineStaysStopped :
    (∀ m ∈ [Move.reset, .load 0xFFFF 1, .mute, .run 1],
      let s : State := { hosted [m] with status := .halted }
      s.status ≠ .running ∧ (match step s with | .next _ => true | .fault _ | .refused _ => false) = true) ∧
    (let s : State := { State.reset with
        status := .illegalOpcode 0x68 0, host := { schedule := [], phase := .running 1, resetDone := true } }
     s.status ≠ .running ∧ step s = .next (s.returnFromRun 1)) :=
  ⟨by decide, by decide, rfl⟩

/-- One instruction for each clause, with the part it writes changed. -/
theorem witness_OnlyTheseWriteControlState :
    let s : State := State.index State.reset 0x35
    let t (i : Instr) (u : State) : State := match exec i u with | .next v => v | .fault _ | .refused _ => u
    (t .mark s).t ≠ s.t ∧ (t .ret s).ie ≠ s.ie ∧ (t .seq s).q ≠ s.q ∧
    (t .shl { s with d := 0x80 }).df ≠ s.df ∧ (t (.sdi 1) s).df ≠ s.df ∧ (t (.sex 3) s).x ≠ s.x ∧
    (t .mark s).x ≠ s.x ∧ (t .dis s).x ≠ s.x ∧ (t (.sep 3) s).p ≠ s.p ∧ (t .ret s).p ≠ s.p := by
  decide

/-- Each store changes the cell it stores to: the byte there was 0xEE. -/
theorem witness_OnlyStoresWriteMemory :
    let s : State := State.index { State.reset with env := lined [] [0x0D] } 0xEE
    let t (i : Instr) : State := match exec i s with | .next v => v | .fault _ | .refused _ => s
    ∀ i ∈ [Instr.str 2, .stxd, .sav, .mark, .inp 7], (t i).byteAt 0x0200 ≠ s.byteAt 0x0200 := by
  decide

/-- An engine turn that completes, with nothing scheduled and as the schedule's next move; and two states that share the generator and the draw number but nothing else. -/
theorem witness_EngineAndToneAreApart :
    (∀ ms ∈ [[], [Move.engine, .mute]],
      let s : State := { atPc 0 [0xC4] with host := (hosted ms).host }
      s.host.schedule = ms ∧ (match step s with | .next _ => true | .fault _ | .refused _ => false) = true) ∧
    (∀ m ∈ [Move.mute, .produceSample, .setRegister 0x0B 0x40],
      let s := hosted [m]
      let s' : State := { hosted [m, .engine] with d := 7, status := .halted, mem := [(0, 1)] }
      s.host.schedule = [m] ∧ s'.host.schedule = m :: [.engine] ∧ s'.tone = s.tone ∧ s'.env.draws = s.env.draws) :=
  ⟨by decide, by
    intro m hm
    exact ⟨rfl, rfl, rfl, rfl⟩⟩

theorem witness_ResetZeroesTheEngine :
    (∀ ph ∈ [RunPhase.stepping, .returned],
      let s : State := { State.reset with host := { schedule := [.reset, .engine], phase := ph, resetDone := true } }
      s.host.schedule = .reset :: [.engine] ∧ ∀ b, s.host.phase ≠ .running b) ∧
    (let s : State := { State.reset with host := { schedule := [.reset], phase := .running 5, resetDone := true } }
     s.host.schedule = .reset :: [] ∧ s.host.phase = .running 5) := by
  simp

/-- A `Run(1)` that returns and one that stops. -/
theorem witness_RunOvershootIsBounded :
    (1 : Int) ≤ 1 ∧ (atPc 0 [0xC4]).host.resetDone = true ∧
    (match runCall 1 (atPc 0 [0xC4]) with | .returned v _ => v == 23 | _ => false) = true ∧
    (match runCall 1 (atPc 0 [0x00]) with | .stopped st _ => st == .halted | _ => false) = true := by decide

theorem witness_RunOfOneIncrement :
    ((1 : Int) ≤ 1 ∧ (1 : Int) ≤ 16 ∧ (1 : Int) ≤ 16 ∧ (16 : Int) ≤ 16) ∧
    (let s := atPc 0x0100 [0x1F]
     s.host.resetDone = true ∧ s.status = .running ∧ s.opcode = 0x1#4 ++ 0xF#4) ∧
    (let s := seqAt 3 0xFFFF [0x13]
     s.host.resetDone = true ∧ s.status = .running ∧ s.opcode = 0x1#4 ++ 0x3#4) := by decide

/-- The first `Run` call and a later one; and the idle engine after a return. -/
theorem witness_SteppingRefinesRunCall :
    ∀ ph ∈ [RunPhase.stepping, .returned],
      let s := (atPc 0x0100 [0x11, 0x00]).setPhase ph
      s.host.schedule = [] ∧ s.host.resetDone = true ∧ (∀ c, s.host.phase ≠ .running c) ∧
      (ph = .returned → s.host.phase = .returned) := by
  simp only [List.mem_cons, List.not_mem_nil, or_false]
  rintro ph (rfl | rfl) <;> exact ⟨rfl, rfl, nofun, by decide⟩

/-- The invariant holds of a state inside a `Run` call, and the step from it completes. -/
theorem witness_StepKeepsInvariant :
    let s : State := { atPc 0x0100 [0xC4] with
      clk := 16, host := { schedule := [], phase := .running 17, resetDone := true } }
    Inv s ∧ (match step s with | .next t => t.clk == 40 | .fault _ | .refused _ => false) = true := by
  refine ⟨⟨by decide, ?_, by decide, by decide, ?_, ?_⟩, by decide⟩
  · intro c _
    show (Vector.replicate 32 Channel.zero)[c.toFin].count = 0
    simp [Channel.zero]
  · intro b hb h1
    cases hb
    decide
  · intro op a h
    cases h

theorem witness_MuteZeroesChannels : (hosted [.mute]).host.schedule = .mute :: [] := rfl

/-- Registers 0 to 4 and 7, with the tag matching for 1 and for 3, and not matching. -/
theorem witness_RegisterWritesReachTheirChannel :
    (∀ reg ∈ [0#3, 1#3, 2#3, 3#3, 4#3, 7#3],
      (hosted [.setRegister (31#5 ++ reg) 0]).host.schedule = .setRegister (31#5 ++ reg) 0 :: []) ∧
    (let s : State := { hosted [.setRegister (31#5 ++ 1#3) 0x12] with
        tone := { Tone.powerOn with stage := { value := 0x34, tag := some (31, .deltaLow) } } }
     s.tone.stage.tag = some (31#5, .deltaLow) ∧ s.tone.stage.tag ≠ some (31#5, .volLeft)) ∧
    (let s : State := { hosted [.setRegister (0#5 ++ 3#3) 0] with
        tone := { Tone.powerOn with stage := { value := 0, tag := some (0, .volLeft) } } }
     s.tone.stage.tag = some (0#5, .volLeft)) := by
  refine ⟨fun reg _ => rfl, ⟨rfl, by decide⟩, rfl⟩

theorem witness_StagedDeltaCommits :
    (hosted [.setRegister (1#5 ++ 0#3) 0x34, .setRegister (1#5 ++ 1#3) 0x12]).host.schedule =
      .setRegister (1#5 ++ 0#3) 0x34 :: (List.replicate 0 .produceSample ++ .setRegister (1#5 ++ 1#3) 0x12 :: []) ∧
    (hosted [.setRegister (31#5 ++ 0#3) 0, .produceSample, .setRegister (31#5 ++ 1#3) 0xFF, .mute]).host.schedule =
      .setRegister (31#5 ++ 0#3) 0 ::
        (List.replicate 1 .produceSample ++ .setRegister (31#5 ++ 1#3) 0xFF :: [.mute]) := ⟨rfl, rfl⟩

/-- The boundary of noise mode, `delta` 0xFEFF and 0xFF00, and the silent, half-silent and full volumes. -/
theorem witness_SilentChannelIsSkipped :
    let tonal : Channel := { Channel.zero with delta := 0xFEFF, volumeLeft := 5 }
    let noisy : Channel := { Channel.zero with delta := 0xFF00, volumeRight := 5 }
    (Channel.zero.volumeLeft = 0 ∧ Channel.zero.volumeRight = 0) ∧
    (¬(tonal.volumeLeft = 0 ∧ tonal.volumeRight = 0) ∧ tonal.delta.toNat < 0xFF00 ∧ tonal.volumeRight = 0) ∧
    (¬(noisy.volumeLeft = 0 ∧ noisy.volumeRight = 0) ∧ 0xFF00 ≤ noisy.delta.toNat ∧ noisy.volumeLeft = 0) ∧
    (let both : Channel := { tonal with volumeRight := 255 }
     ¬(both.volumeLeft = 0 ∧ both.volumeRight = 0) ∧ both.delta.toNat < 0xFF00) := by
  decide

theorem witness_SilentGeneratorGivesZero : ∀ c, ((toneWith 0x12345).chan c).silent = true := by
  intro c
  show (Vector.replicate 32 Channel.zero)[c.toFin].silent = true
  simp [Channel.zero, Channel.silent]

/-- Two parameter sets that share only the taps. -/
theorem witness_NoiseNeverUsesWaveforms :
    let c : Channel := { Channel.zero with delta := 0xFF00, volumeLeft := 1 }
    let P := ToneParams.default
    let Q : ToneParams := { P with pulse2 := fun _ => true, wave4 := fun _ => 0 }
    0xFF00 ≤ c.delta.toNat ∧ P.tapA = Q.tapA ∧ P.tapB = Q.tapB := by decide

/-- Ramps at the largest value they may have. -/
theorem witness_MixerSumsAreBounded :
    let P : ToneParams := { ToneParams.default with wave4 := fun _ => 0x4000, wave6 := fun _ => -0x4000 }
    (∀ w, |P.wave4 w| ≤ 0x4000) ∧ (∀ w, |P.wave6 w| ≤ 0x4000) :=
  ⟨fun _ => by simp, fun _ => by simp⟩

/-- Channels 0 to `k - 1` at full volume on both sides, type 0 and `delta` as given. -/
def loud (k : Nat) (delta : Word) : Tone :=
  (List.range k).foldl (fun g c => setup (BitVec.ofNat 5 c) delta 255 255 0 g) (toneWith 0)

/-- Nine loud channels put both sums above the range after one sample, or below it, and eight leave them inside (TG7):
the premises of the clamped and of the unclamped clauses. -/
theorem witness_SampleIsClampedAndCounted_sums :
    let sum (g : Tone) : Int := (g.mix ToneParams.default).left / 512
    let sumR (g : Tone) : Int := (g.mix ToneParams.default).right / 512
    (32767 < sum (loud 9 0x8000) ∧ 32767 < sumR (loud 9 0x8000)) ∧
    (sum (loud 9 0) < -32768 ∧ sumR (loud 9 0) < -32768) ∧
    (-32768 ≤ sum (loud 8 0x8000) ∧ sum (loud 8 0x8000) ≤ 32767 ∧
      -32768 ≤ sumR (loud 8 0x8000) ∧ sumR (loud 8 0x8000) ≤ 32767) := by decide

/-- The 48000th sample and another one, with counts that report and that do not. -/
theorem witness_SampleIsClampedAndCounted :
    (∀ n ∈ [0, 47998, 47999],
      let s : State := { hosted [.produceSample] with tone := { toneWith 0 with sampleCount := n, clipCount := n } }
      s.host.schedule = .produceSample :: [] ∧ s.tone.sampleCount = n) ∧ (47998 : Nat) ≠ 47999 := by decide

theorem witness_TonalPhaseIsLinear :
    let c : Channel := { Channel.zero with delta := 0xFEFF, volumeLeft := 1 }
    let c' : Channel := { Channel.zero with delta := 0x0100, volumeRight := 1 }
    (c.silent = false ∧ c.delta.toNat < 0xFF00) ∧ (c'.silent = false ∧ c'.delta.toNat < 0xFF00 ∧ c'.delta = 0x0100) := by
  decide

end Sys2Proof.Tests
end

section
/-! SUPPORT. The frame rules: what each update of the state leaves alone, one rule per update and frame; and the
Encoding and Cost of an opcode outside 0xC0-0xCF. Every proof about a single instruction is assembled from these. -/

namespace Sys2Proof.Machine

open Sys2Proof

/-! ### Encoding and cost (R91, R115) -/

theorem cost_eq (op : Byte) : cost op = if opHi op = 0xC#4 then 24 else 16 := rfl

/-- Outside the high nibble 0xC every opcode costs 16, whatever bytes follow it. -/
theorem row_of_head {i : Instr} {op : Byte} {bs : List Byte} (he : encode i = op :: bs) (hh : opHi op ≠ 0xC#4) :
    Row i (op :: bs) 16 :=
  ⟨he, by rw [List.headD_cons, cost_eq, if_neg hh]⟩

/-! ### Post-modification modulo 2^16 (R8, R130) -/

theorem toNat_add_one (v : Word) : (v + 1).toNat = (v.toNat + 1) % 65536 := BitVec.toNat_add v 1

theorem toNat_sub_one (v : Word) : (v - 1).toNat = (v.toNat + 65535) % 65536 := by
  rw [BitVec.toNat_sub, Nat.add_comm]; rfl

section
variable {s u : State}

/-! ### The general registers -/

@[simp] theorem RegsKeptBut.refl (l : List Reg) (s : State) : RegsKeptBut l s s := fun _ _ => rfl

@[simp] theorem regsKeptBut_emit (l : List Reg) (e : Event) :
    RegsKeptBut l s (u.emit e) ↔ RegsKeptBut l s u := Iff.rfl
@[simp] theorem regsKeptBut_setD (l : List Reg) (v : Byte) :
    RegsKeptBut l s (u.setD v) ↔ RegsKeptBut l s u := Iff.rfl
@[simp] theorem regsKeptBut_poke (l : List Reg) (a : Word) (v : Byte) :
    RegsKeptBut l s (u.poke a v) ↔ RegsKeptBut l s u := Iff.rfl

/-- Writing a register that the frame leaves open. -/
@[simp] theorem regsKeptBut_setReg {l : List Reg} {n : Reg} (h : n ∈ l) (v : Word) :
    RegsKeptBut l s (u.setReg n v) ↔ RegsKeptBut l s u :=
  forall₂_congr fun _ hk => by rw [State.reg_setReg, if_neg (ne_of_mem_of_not_mem h hk).symm]

/-! ### Memory -/

@[simp] theorem MemKept.refl (s : State) : MemKept s s := fun _ => rfl
@[simp] theorem MemKeptBut.refl (a : Word) (s : State) : MemKeptBut a s s := fun _ _ => rfl

@[simp] theorem memKept_emit (e : Event) : MemKept s (u.emit e) ↔ MemKept s u := Iff.rfl
@[simp] theorem memKept_setD (v : Byte) : MemKept s (u.setD v) ↔ MemKept s u := Iff.rfl
@[simp] theorem memKept_setReg (n : Reg) (v : Word) : MemKept s (u.setReg n v) ↔ MemKept s u := Iff.rfl

@[simp] theorem memKeptBut_emit (a : Word) (e : Event) :
    MemKeptBut a s (u.emit e) ↔ MemKeptBut a s u := Iff.rfl
@[simp] theorem memKeptBut_setReg (a : Word) (n : Reg) (v : Word) :
    MemKeptBut a s (u.setReg n v) ↔ MemKeptBut a s u := Iff.rfl

/-- Storing into the one cell that the frame leaves open. -/
@[simp] theorem memKeptBut_poke (a : Word) (v : Byte) :
    MemKeptBut a s (u.poke a v) ↔ MemKeptBut a s u :=
  forall₂_congr fun _ ha => by rw [State.byteAt_poke, if_neg ha]

/-! ### The other parts -/

@[simp] theorem KeptBut.refl (l : List Part) (s : State) : KeptBut l s s := fun f _ => by cases f <;> rfl

@[simp] theorem keptBut_emit (l : List Part) (e : Event) : KeptBut l s (u.emit e) ↔ KeptBut l s u :=
  forall₂_congr fun f _ => by cases f <;> rfl
@[simp] theorem keptBut_setReg (l : List Part) (n : Reg) (v : Word) :
    KeptBut l s (u.setReg n v) ↔ KeptBut l s u :=
  forall₂_congr fun f _ => by cases f <;> rfl
@[simp] theorem keptBut_poke (l : List Part) (a : Word) (v : Byte) :
    KeptBut l s (u.poke a v) ↔ KeptBut l s u :=
  forall₂_congr fun f _ => by cases f <;> rfl

/-- Writing `D` where the frame leaves it open. -/
@[simp] theorem keptBut_setD {l : List Part} (h : Part.d ∈ l) (v : Byte) :
    KeptBut l s (u.setD v) ↔ KeptBut l s u :=
  forall₂_congr fun f hf => by
    cases f
    case d => exact absurd h hf
    all_goals rfl

end

end Sys2Proof.Machine
end

section
/-! PROOFS. Loads and stores (41_memory_reference.md): the four shapes of a state after one of them, what each shape
changes and keeps, and the obligations of the family. -/

namespace Sys2Proof.Machine

open Sys2Proof

/-! ### What each instruction answers -/

theorem exec_ldn (n : Reg) (s : State) :
    exec (.ldn n) s = .next ((s.emit (.memRead (s.reg n) (s.byteAt (s.reg n)))).setD (s.byteAt (s.reg n))) := rfl

/-- LDX is LDN of the register `X` selects. -/
theorem exec_ldx (s : State) : exec .ldx s = exec (.ldn s.x) s := rfl

theorem exec_lda (n : Reg) (s : State) :
    exec (.lda n) s = .next
      (((s.emit (.memRead (s.reg n) (s.byteAt (s.reg n)))).incReg n).setD (s.byteAt (s.reg n))) := rfl

/-- LDXA is LDA of the register `X` selects. -/
theorem exec_ldxa (s : State) : exec .ldxa s = exec (.lda s.x) s := rfl

/-- The operand fetch is an observed read with post-increment of `R[P]` (R111). -/
theorem exec_ldi (v : Byte) (s : State) :
    exec (.ldi v) s = .next (((s.emit (.memRead (s.reg s.p) v)).incReg s.p).setD v) := rfl

theorem exec_str (n : Reg) (s : State) : exec (.str n) s = .next (s.writeCell (s.reg n) s.d) := rfl

theorem exec_sav (s : State) : exec .sav s = .next (s.writeCell (s.reg s.x) s.t) := rfl

theorem exec_stxd (s : State) :
    exec .stxd s = .next ((s.writeCell (s.reg s.x) s.d).decReg s.x) := rfl

/-! ### What each shape changes and keeps -/

/-- A load: one event, and `D` only. -/
theorem emit_setD_effect {s t : State} {e : Event} {v : Byte} (ht : t = (s.emit e).setD v) :
    t.d = v ∧ t.events = e :: s.events ∧ RegsKeptBut [] s t ∧ MemKept s t ∧ KeptBut [.d] s t := by
  subst ht
  exact ⟨rfl, rfl, by simp, by simp, by simp⟩

/-- A load with post-increment: one event, `D` and the one register. -/
theorem emit_incReg_setD_effect {s t : State} {e : Event} {n : Reg} {v : Byte}
    (ht : t = ((s.emit e).incReg n).setD v) :
    t.d = v ∧ t.reg n = s.reg n + 1 ∧ t.events = e :: s.events ∧
      RegsKeptBut [n] s t ∧ MemKept s t ∧ KeptBut [.d] s t := by
  subst ht
  exact ⟨rfl, by simp, rfl, by simp, by simp, by simp⟩

/-- A store: one event, and the one cell. -/
theorem writeCell_effect {s t : State} {a : Word} {v : Byte} (ht : t = s.writeCell a v) :
    t.byteAt a = v ∧ MemKeptBut a s t ∧ t.events = .memWrite a v :: s.events ∧
      RegsKeptBut [] s t ∧ KeptBut [] s t := by
  subst ht
  exact ⟨by simp, by simp, rfl, by simp, by simp⟩

/-- A store with post-decrement: one event, the one cell and the one register. -/
theorem writeCell_decReg_effect {s t : State} {a : Word} {n : Reg} {v : Byte}
    (ht : t = (s.writeCell a v).decReg n) :
    t.byteAt a = v ∧ MemKeptBut a s t ∧ t.reg n = s.reg n - 1 ∧ t.events = .memWrite a v :: s.events ∧
      RegsKeptBut [n] s t ∧ KeptBut [] s t := by
  subst ht
  exact ⟨by simp, by simp, by simp, rfl, by simp, by simp⟩

theorem exec_ldn_effect (n : Reg) (s : State) :
    ∃ t, exec (.ldn n) s = .next t ∧ t.d = s.byteAt (s.reg n) ∧
      t.events = .memRead (s.reg n) (s.byteAt (s.reg n)) :: s.events ∧
      RegsKeptBut [] s t ∧ MemKept s t ∧ KeptBut [.d] s t :=
  ⟨_, exec_ldn n s, emit_setD_effect rfl⟩

theorem exec_lda_effect (n : Reg) (s : State) :
    ∃ t, exec (.lda n) s = .next t ∧ t.d = s.byteAt (s.reg n) ∧
      (t.reg n).toNat = ((s.reg n).toNat + 1) % 65536 ∧
      t.events = .memRead (s.reg n) (s.byteAt (s.reg n)) :: s.events ∧
      RegsKeptBut [n] s t ∧ MemKept s t ∧ KeptBut [.d] s t := by
  obtain ⟨hd, hn, hrest⟩ := emit_incReg_setD_effect (s := s) (n := n) rfl
  exact ⟨_, exec_lda n s, hd, by rw [hn, toNat_add_one], hrest⟩

/-! ### The obligations -/

/-- Settles O10: LDX is the case `n = X` of LDN. -/
theorem loadsWithoutAdvance : Obligations.LoadsWithoutAdvance := by
  intro n s
  refine ⟨⟨fun _ => row_of_head rfl (by simp), exec_ldn_effect n s⟩, row_of_head rfl (by decide), ?_⟩
  rw [exec_ldx]
  exact exec_ldn_effect s.x s

/-- Settles O11: LDXA is the case `n = X` of LDA. -/
theorem loadsWithAdvance : Obligations.LoadsWithAdvance := by
  intro n s
  refine ⟨⟨row_of_head rfl (by simp), exec_lda_effect n s⟩, row_of_head rfl (by decide), ?_⟩
  rw [exec_ldxa]
  exact exec_lda_effect s.x s

/-- Settles O12: the operand fetch is a load with post-increment through `R[P]`. -/
theorem loadImmediateTakesOperand : Obligations.LoadImmediateTakesOperand := by
  intro v s
  exact ⟨row_of_head rfl (by decide), _, exec_ldi v s, emit_incReg_setD_effect rfl⟩

/-- Settles O13: both are one `MemWrite`, of `D` at `R[n]` and of `T` at `R[X]`. -/
theorem storesWriteOneCell : Obligations.StoresWriteOneCell := by
  intro n s
  exact ⟨⟨row_of_head rfl (by simp), _, exec_str n s, writeCell_effect rfl⟩,
    row_of_head rfl (by decide), _, exec_sav s, writeCell_effect rfl⟩

/-- Settles O14: the store goes to the old `R[X]`, and only then the register is decremented. -/
theorem storeAndRetreat : Obligations.StoreAndRetreat := by
  intro s
  obtain ⟨hcell, hmem, hx, hrest⟩ := writeCell_decReg_effect (s := s) (n := s.x) rfl
  exact ⟨row_of_head rfl (by decide), _, exec_stxd s, hcell, hmem, by rw [hx, toNat_sub_one], hrest⟩

end Sys2Proof.Machine
end

section
/-! SUPPORT. The two bytes of a word in arithmetic, and the frame rules of the two selectors `P` and `X`. -/

namespace Sys2Proof.Machine

open Sys2Proof

/-! ### The bytes of a word (R8) -/

theorem toNat_lo (v : Word) : (lo v).toNat = v.toNat % 256 := by
  simp [lo]

theorem toNat_hi (v : Word) : (hi v).toNat = v.toNat / 256 := by
  have hv := v.isLt
  rw [hi, BitVec.extractLsb'_toNat, Nat.shiftRight_eq_div_pow]
  omega

theorem toNat_join (h l : Byte) : (join h l).toNat = h.toNat * 256 + l.toNat := by
  rw [join, BitVec.toNat_append, ← Nat.shiftLeft_add_eq_or_of_lt l.isLt, Nat.shiftLeft_eq]

/-! ### Selecting a register -/

section
variable {s u : State}

@[simp] theorem regsKeptBut_setP (l : List Reg) (n : Reg) :
    RegsKeptBut l s (u.setP n) ↔ RegsKeptBut l s u := Iff.rfl
@[simp] theorem regsKeptBut_setX (l : List Reg) (n : Reg) :
    RegsKeptBut l s (u.setX n) ↔ RegsKeptBut l s u := Iff.rfl

@[simp] theorem memKept_setP (n : Reg) : MemKept s (u.setP n) ↔ MemKept s u := Iff.rfl
@[simp] theorem memKept_setX (n : Reg) : MemKept s (u.setX n) ↔ MemKept s u := Iff.rfl

/-- Writing `P` where the frame leaves it open. -/
@[simp] theorem keptBut_setP {l : List Part} (h : Part.p ∈ l) (n : Reg) :
    KeptBut l s (u.setP n) ↔ KeptBut l s u :=
  forall₂_congr fun f hf => by
    cases f
    case p => exact absurd h hf
    all_goals rfl

/-- Writing `X` where the frame leaves it open. -/
@[simp] theorem keptBut_setX {l : List Part} (h : Part.x ∈ l) (n : Reg) :
    KeptBut l s (u.setX n) ↔ KeptBut l s u :=
  forall₂_congr fun f hf => by
    cases f
    case x => exact absurd h hf
    all_goals rfl

end

end Sys2Proof.Machine
end

section
/-! PROOFS. Register operations (42_register_ops.md): each is one update of one register, of `D`, of `P` or of `X`,
with no event; what each update changes and keeps, and the obligations of the family. -/

namespace Sys2Proof.Machine

open Sys2Proof

/-! ### What each instruction answers -/

theorem exec_inc (n : Reg) (s : State) : exec (.inc n) s = .next (s.setReg n (s.reg n + 1)) := rfl

theorem exec_dec (n : Reg) (s : State) : exec (.dec n) s = .next (s.setReg n (s.reg n - 1)) := rfl

/-- IRX is INC of the register `X` selects. -/
theorem exec_irx (s : State) : exec .irx s = exec (.inc s.x) s := rfl

theorem exec_glo (n : Reg) (s : State) : exec (.glo n) s = .next (s.setD (lo (s.reg n))) := rfl

theorem exec_ghi (n : Reg) (s : State) : exec (.ghi n) s = .next (s.setD (hi (s.reg n))) := rfl

theorem exec_plo (n : Reg) (s : State) :
    exec (.plo n) s = .next (s.setReg n (join (hi (s.reg n)) s.d)) := rfl

theorem exec_phi (n : Reg) (s : State) :
    exec (.phi n) s = .next (s.setReg n (join s.d (lo (s.reg n)))) := rfl

theorem exec_sep (n : Reg) (s : State) : exec (.sep n) s = .next (s.setP n) := rfl

theorem exec_sex (n : Reg) (s : State) : exec (.sex n) s = .next (s.setX n) := rfl

/-! ### What each update changes and keeps

The register and `D` are given by their number `m`, as the rules of the family give them. -/

theorem setReg_effect {s t : State} {n : Reg} {v : Word} {m : Nat} (ht : t = s.setReg n v) (hv : v.toNat = m) :
    (t.reg n).toNat = m ∧ t.events = s.events ∧ RegsKeptBut [n] s t ∧ MemKept s t ∧ KeptBut [] s t := by
  subst ht
  exact ⟨by simpa using hv, rfl, by simp, by simp, by simp⟩

theorem setD_effect {s t : State} {v : Byte} {m : Nat} (ht : t = s.setD v) (hv : v.toNat = m) :
    t.d.toNat = m ∧ t.events = s.events ∧ RegsKeptBut [] s t ∧ MemKept s t ∧ KeptBut [.d] s t := by
  subst ht
  exact ⟨hv, rfl, by simp, by simp, by simp⟩

/-- Selecting the program counter moves control to `R[n]` and writes no register. -/
theorem setP_effect {s t : State} {n : Reg} (ht : t = s.setP n) :
    t.p = n ∧ t.pc = s.reg n ∧ t.events = s.events ∧
      RegsKeptBut [] s t ∧ MemKept s t ∧ KeptBut [.p] s t := by
  subst ht
  exact ⟨rfl, rfl, rfl, by simp, by simp, by simp⟩

/-- Selecting the index register leaves control where it is. -/
theorem setX_effect {s t : State} {n : Reg} (ht : t = s.setX n) :
    t.x = n ∧ t.pc = s.pc ∧ t.events = s.events ∧
      RegsKeptBut [] s t ∧ MemKept s t ∧ KeptBut [.x] s t := by
  subst ht
  exact ⟨rfl, rfl, rfl, by simp, by simp, by simp⟩

theorem exec_inc_effect (n : Reg) (s : State) :
    ∃ t, exec (.inc n) s = .next t ∧ (t.reg n).toNat = ((s.reg n).toNat + 1) % 65536 ∧
      t.events = s.events ∧ RegsKeptBut [n] s t ∧ MemKept s t ∧ KeptBut [] s t :=
  ⟨_, exec_inc n s, setReg_effect rfl (toNat_add_one _)⟩

/-! ### The obligations -/

/-- Settles O15: IRX is the case `n = X` of INC. -/
theorem incrementAndDecrement : Obligations.IncrementAndDecrement := by
  intro n s
  refine ⟨⟨row_of_head rfl (by simp), exec_inc_effect n s⟩,
    ⟨row_of_head rfl (by simp), _, exec_dec n s, setReg_effect rfl (toNat_sub_one _)⟩,
    row_of_head rfl (by decide), ?_⟩
  rw [exec_irx]
  exact exec_inc_effect s.x s

/-- Settles O16: GLO and GHI take a byte of the word apart, PLO and PHI join `D` with the byte that is kept. -/
theorem registerBytesMoveThroughD : Obligations.RegisterBytesMoveThroughD := by
  intro n s
  refine ⟨⟨row_of_head rfl (by simp), _, exec_glo n s, setD_effect rfl (toNat_lo _)⟩,
    ⟨row_of_head rfl (by simp), _, exec_ghi n s, setD_effect rfl (toNat_hi _)⟩,
    ⟨row_of_head rfl (by simp), _, exec_plo n s, setReg_effect rfl ?_⟩,
    row_of_head rfl (by simp), _, exec_phi n s, setReg_effect rfl ?_⟩
  · rw [toNat_join, toNat_hi]
  · rw [toNat_join, toNat_lo]

/-- Settles O17: each writes one selector, and the program counter is the register that `P` then selects. -/
theorem selectRegisters : Obligations.SelectRegisters := by
  intro n s
  exact ⟨⟨row_of_head rfl (by simp), _, exec_sep n s, setP_effect rfl⟩,
    row_of_head rfl (by simp), _, exec_sex n s, setX_effect rfl⟩

end Sys2Proof.Machine
end

section
/-! SUPPORT. The frame rules of a result written to `D` and `DF` together; the four shifts in arithmetic; and the
rotates through `DF` as rotations of a ring of nine bits. -/

namespace Sys2Proof.Machine

open Sys2Proof

/-! ### Writing `D` and `DF` -/

section
variable {s u : State}

@[simp] theorem regsKeptBut_setDDF (l : List Reg) (v : Byte) (f : Bool) :
    RegsKeptBut l s (u.setDDF v f) ↔ RegsKeptBut l s u := Iff.rfl

@[simp] theorem memKept_setDDF (v : Byte) (f : Bool) : MemKept s (u.setDDF v f) ↔ MemKept s u := Iff.rfl

/-- Writing `D` and `DF` where the frame leaves both open. -/
@[simp] theorem keptBut_setDDF {l : List Part} (hd : Part.d ∈ l) (hdf : Part.df ∈ l) (v : Byte) (f : Bool) :
    KeptBut l s (u.setDDF v f) ↔ KeptBut l s u :=
  forall₂_congr fun g hg => by
    cases g
    case d => exact absurd hd hg
    case df => exact absurd hdf hg
    all_goals rfl

end

/-- A result alone: `D`, given by its number `m`, and `DF`. -/
theorem setResult_effect {s t : State} {v : DDF} {m : Nat} {b : Bool} (ht : t = s.setResult v)
    (hd : v.d.toNat = m) (hdf : v.df = b) :
    t.d.toNat = m ∧ t.df = b ∧ t.events = s.events ∧
      RegsKeptBut [] s t ∧ MemKept s t ∧ KeptBut [.d, .df] s t := by
  subst ht
  exact ⟨hd, hdf, rfl, by simp, by simp, by simp⟩

/-! ### The bit going out (R162 to R165) -/

theorem getLsbD_zero_eq_decide (d : Byte) : d.getLsbD 0 = decide (d.toNat % 2 = 1) := Nat.testBit_zero d.toNat

theorem getLsbD_seven_eq_decide (d : Byte) : d.getLsbD 7 = decide (128 ≤ d.toNat) := BitVec.msb_eq_decide d

/-! ### The shifted byte in arithmetic (R162 to R165) -/

theorem toNat_shiftRight (d : Byte) : (shiftRight d).d.toNat = d.toNat / 2 := by
  rw [shiftRight, BitVec.toNat_ushiftRight, Nat.shiftRight_eq_div_pow]

theorem toNat_shiftLeft (d : Byte) : (shiftLeft d).d.toNat = 2 * d.toNat % 256 := by
  rw [shiftLeft, BitVec.toNat_shiftLeft, Nat.shiftLeft_eq, Nat.mul_comm]

theorem toNat_setWidth_ofBool (f : Bool) : ((BitVec.ofBool f).setWidth 8).toNat = f.toNat := by
  cases f <;> rfl

/-- The old `DF` enters above the seven bits that are left of `D`, so the two are added. -/
theorem toNat_shiftRightCarry (d : Byte) (f : Bool) :
    (shiftRightCarry d f).d.toNat = 128 * f.toNat + d.toNat / 2 := by
  have hd : d.toNat >>> 1 < 2 ^ 7 := by have := d.isLt; omega
  have hf : f.toNat <<< 7 < 2 ^ 8 := by have := f.toNat_lt; omega
  rw [shiftRightCarry, BitVec.toNat_or, BitVec.toNat_shiftLeft, toNat_setWidth_ofBool, BitVec.toNat_ushiftRight,
    Nat.mod_eq_of_lt hf, ← Nat.shiftLeft_add_eq_or_of_lt hd]
  omega

/-- The old `DF` enters bit 0, which the shift has cleared, so the two are added. -/
theorem toNat_shiftLeftCarry (d : Byte) (f : Bool) :
    (shiftLeftCarry d f).d.toNat = (2 * d.toNat + f.toNat) % 256 := by
  have hf : f.toNat < 2 ^ 1 := f.toNat_lt
  have hmod : f.toNat % 2 ^ 8 = f.toNat := by omega
  rw [shiftLeftCarry, BitVec.toNat_or, BitVec.toNat_shiftLeft, toNat_setWidth_ofBool, ← hmod, ← Nat.or_mod_two_pow,
    hmod, ← Nat.shiftLeft_add_eq_or_of_lt hf]
  omega

/-! ### The rotates through `DF` (R163, R165) -/

/-- SHRC's function from the old `D` and `DF` to the new. -/
def DDF.rotateRight (v : DDF) : DDF := shiftRightCarry v.d v.df

/-- SHLC's function from the old `D` and `DF` to the new. -/
def DDF.rotateLeft (v : DDF) : DDF := shiftLeftCarry v.d v.df

/-- `DF:D` as a ring of nine bits: `DF` is number 8, above bit 7 of `D` and, going round, below bit 0. -/
def DDF.ring (v : DDF) (k : Fin 9) : Bool := if k = 8 then v.df else v.d.getLsbD k

theorem DDF.ring_castSucc (v : DDF) (k : Fin 8) : v.ring k.castSucc = v.d.getLsbD k :=
  if_neg (Fin.castSucc_lt_last k).ne

theorem DDF.ring_injective : Function.Injective DDF.ring := by
  rintro ⟨d, f⟩ ⟨d', f'⟩ h
  obtain rfl : f = f' := congrFun h 8
  have hd : d = d' := BitVec.eq_of_getLsbD_eq fun k hk => by
    simpa only [ring_castSucc] using congrFun h (Fin.castSucc ⟨k, hk⟩)
  rw [hd]

/-- Rotating right hands each place of the ring the bit of the place above it. -/
theorem DDF.ring_rotateRight (v : DDF) (k : Fin 9) : v.rotateRight.ring k = v.ring (k + 1) := by
  fin_cases k <;> simp [ring, rotateRight, shiftRightCarry]

/-- Rotating left hands each place of the ring the bit of the place below it, so place `k + 1` the bit of place `k`. -/
theorem DDF.ring_rotateLeft (v : DDF) (k : Fin 9) : v.rotateLeft.ring (k + 1) = v.ring k := by
  fin_cases k <;> simp [ring, rotateLeft, shiftLeftCarry]

theorem DDF.ring_rotateRight_iterate (n : Nat) (v : DDF) (k : Fin 9) :
    (rotateRight^[n] v).ring k = v.ring ((· + 1)^[n] k) := by
  induction n generalizing k with
  | zero => rfl
  | succ n ih => rw [Function.iterate_succ_apply', ring_rotateRight, ih, Function.iterate_succ_apply]

/-- Nine places are once round the ring. -/
theorem DDF.rotateRight_iterate_nine (v : DDF) : rotateRight^[9] v = v := by
  have round : ∀ k : Fin 9, (· + 1)^[9] k = k := by decide
  exact ring_injective (funext fun k => by rw [ring_rotateRight_iterate, round])

/-- Rotating left undoes rotating right: the ring goes back by one place. -/
theorem DDF.leftInverse_rotateLeft_rotateRight : Function.LeftInverse rotateLeft rotateRight := fun _ =>
  ring_injective (funext fun k => by rw [← sub_add_cancel k 1, ring_rotateLeft, ring_rotateRight])

theorem DDF.rotateLeft_iterate_nine (v : DDF) : rotateLeft^[9] v = v := by
  simpa only [rotateRight_iterate_nine] using leftInverse_rotateLeft_rotateRight.iterate 9 v

end Sys2Proof.Machine
end

section
/-! PROOFS. Logic and shifts (43_logic_shift.md): the logic instructions are loads of `D` with a combined byte, and the
shifts are results written to `D` and `DF`; the obligations of the family. -/

namespace Sys2Proof.Machine

open Sys2Proof

/-! ### What each instruction answers -/

section
variable (s : State) (v : Byte)

theorem exec_or : exec .or s = .next
    ((s.emit (.memRead (s.reg s.x) (s.byteAt (s.reg s.x)))).setD (s.d ||| s.byteAt (s.reg s.x))) := rfl

theorem exec_and : exec .and s = .next
    ((s.emit (.memRead (s.reg s.x) (s.byteAt (s.reg s.x)))).setD (s.d &&& s.byteAt (s.reg s.x))) := rfl

theorem exec_xor : exec .xor s = .next
    ((s.emit (.memRead (s.reg s.x) (s.byteAt (s.reg s.x)))).setD (s.d ^^^ s.byteAt (s.reg s.x))) := rfl

theorem exec_ori :
    exec (.ori v) s = .next (((s.emit (.memRead (s.reg s.p) v)).incReg s.p).setD (s.d ||| v)) := rfl

theorem exec_ani :
    exec (.ani v) s = .next (((s.emit (.memRead (s.reg s.p) v)).incReg s.p).setD (s.d &&& v)) := rfl

theorem exec_xri :
    exec (.xri v) s = .next (((s.emit (.memRead (s.reg s.p) v)).incReg s.p).setD (s.d ^^^ v)) := rfl

theorem exec_shr : exec .shr s = .next (s.setResult (shiftRight s.d)) := rfl

theorem exec_shl : exec .shl s = .next (s.setResult (shiftLeft s.d)) := rfl

theorem exec_shrc : exec .shrc s = .next (s.setResult (DDF.rotateRight ⟨s.d, s.df⟩)) := rfl

theorem exec_shlc : exec .shlc s = .next (s.setResult (DDF.rotateLeft ⟨s.d, s.df⟩)) := rfl

end

/-! ### Combining `D` bit by bit -/

/-- A logic instruction with a memory operand is a load whose byte is combined with `D`. -/
theorem logicWithMemory_effect {i : Instr} {f : Bool → Bool → Bool} {s : State} {e : Event} {b v : Byte}
    (hi : exec i s = .next ((s.emit e).setD v))
    (hv : ∀ k, v.getLsbD k = f (s.d.getLsbD k) (b.getLsbD k)) :
    ∃ t, exec i s = .next t ∧ (∀ k, k < 8 → t.d.getLsbD k = f (s.d.getLsbD k) (b.getLsbD k)) ∧
      t.events = e :: s.events ∧ RegsKeptBut [] s t ∧ MemKept s t ∧ KeptBut [.d] s t := by
  obtain ⟨hd, hrest⟩ := emit_setD_effect (s := s) (e := e) (v := v) rfl
  exact ⟨_, hi, fun k _ => by rw [hd, hv], hrest⟩

/-- A logic instruction with an operand byte is a load with post-increment of `R[P]`, its byte combined with `D`. -/
theorem logicImmediate_effect {i : Instr} {f : Bool → Bool → Bool} {s : State} {e : Event} {b v : Byte}
    (hi : exec i s = .next (((s.emit e).incReg s.p).setD v))
    (hv : ∀ k, v.getLsbD k = f (s.d.getLsbD k) (b.getLsbD k)) :
    ∃ t, exec i s = .next t ∧ (∀ k, k < 8 → t.d.getLsbD k = f (s.d.getLsbD k) (b.getLsbD k)) ∧
      t.reg s.p = s.reg s.p + 1 ∧ t.events = e :: s.events ∧
      RegsKeptBut [s.p] s t ∧ MemKept s t ∧ KeptBut [.d] s t := by
  obtain ⟨hd, hrest⟩ := emit_incReg_setD_effect (s := s) (e := e) (n := s.p) (v := v) rfl
  exact ⟨_, hi, fun k _ => by rw [hd, hv], hrest⟩

/-! ### Repeating a rotate -/

/-- An instruction that replaces `D` and `DF` by a function of them, executed `n` times in a row from `s`. -/
def resultAfter (f : DDF → DDF) (s : State) (n : Nat) : State := s.setResult (f^[n] ⟨s.d, s.df⟩)

theorem exec_resultAfter {i : Instr} {f : DDF → DDF} (hi : ∀ s, exec i s = .next (s.setResult (f ⟨s.d, s.df⟩)))
    (s : State) (n : Nat) : exec i (resultAfter f s n) = .next (resultAfter f s (n + 1)) := by
  rw [hi, resultAfter, resultAfter, Function.iterate_succ_apply']
  rfl

/-- When the function is the identity after `n` rounds, `n` executions leave the whole state as it was. -/
theorem exec_iterate_returns {i : Instr} {f : DDF → DDF} {n : Nat}
    (hi : ∀ s, exec i s = .next (s.setResult (f ⟨s.d, s.df⟩))) (hf : ∀ v, f^[n] v = v) (s : State) :
    ∃ ts : Nat → State, ts 0 = s ∧ (∀ k, k < n → exec i (ts k) = .next (ts (k + 1))) ∧ ts n = s :=
  ⟨resultAfter f s, rfl, fun k _ => exec_resultAfter hi s k, by rw [resultAfter, hf]; rfl⟩

/-! ### The obligations -/

/-- Settles O18: the three are one load of a combined byte, and differ in the bit function only. -/
theorem logicWithMemory : Obligations.LogicWithMemory := by
  intro i op f s h
  simp only [List.mem_cons, Prod.mk.injEq, List.not_mem_nil, or_false] at h
  obtain ⟨rfl, rfl, rfl⟩ | ⟨rfl, rfl, rfl⟩ | ⟨rfl, rfl, rfl⟩ := h
  · exact ⟨row_of_head rfl (by decide), logicWithMemory_effect (exec_or s) fun _ => BitVec.getLsbD_or⟩
  · exact ⟨row_of_head rfl (by decide), logicWithMemory_effect (exec_and s) fun _ => BitVec.getLsbD_and⟩
  · exact ⟨row_of_head rfl (by decide), logicWithMemory_effect (exec_xor s) fun _ => BitVec.getLsbD_xor⟩

/-- Settles O19: as the memory forms, the operand byte coming from the fetch through `R[P]`. -/
theorem logicImmediate : Obligations.LogicImmediate := by
  intro v i op f s h
  simp only [List.mem_cons, Prod.mk.injEq, List.not_mem_nil, or_false] at h
  obtain ⟨rfl, rfl, rfl⟩ | ⟨rfl, rfl, rfl⟩ | ⟨rfl, rfl, rfl⟩ := h
  · exact ⟨row_of_head rfl (by decide), logicImmediate_effect (exec_ori s v) fun _ => BitVec.getLsbD_or⟩
  · exact ⟨row_of_head rfl (by decide), logicImmediate_effect (exec_ani s v) fun _ => BitVec.getLsbD_and⟩
  · exact ⟨row_of_head rfl (by decide), logicImmediate_effect (exec_xri s v) fun _ => BitVec.getLsbD_xor⟩

/-- Settles O20: each writes one result, computed from `D` alone. -/
theorem shiftsTakeInZero : Obligations.ShiftsTakeInZero := fun s =>
  ⟨⟨row_of_head rfl (by decide), _, exec_shr s,
      setResult_effect rfl (toNat_shiftRight _) (getLsbD_zero_eq_decide _)⟩,
    row_of_head rfl (by decide), _, exec_shl s,
    setResult_effect rfl (toNat_shiftLeft _) (getLsbD_seven_eq_decide _)⟩

/-- Settles O21: each writes one result, and nine results in a row are once round the ring `DF:D`. -/
theorem rotatesGoThroughDF : Obligations.RotatesGoThroughDF := by
  refine ⟨fun s => ⟨⟨row_of_head rfl (by decide), _, exec_shrc s, ?_⟩,
    row_of_head rfl (by decide), _, exec_shlc s, ?_⟩, ?_⟩
  · exact setResult_effect rfl (toNat_shiftRightCarry _ _) (getLsbD_zero_eq_decide _)
  · exact setResult_effect rfl (toNat_shiftLeftCarry _ _) (getLsbD_seven_eq_decide _)
  · rintro i s (rfl | rfl)
    · exact exec_iterate_returns exec_shrc DDF.rotateRight_iterate_nine s
    · exact exec_iterate_returns exec_shlc DDF.rotateLeft_iterate_nine s

end Sys2Proof.Machine
end

section
/-! PROOFS. Arithmetic with a memory operand (44_arithmetic.md): each instruction is one observed read and one result of
`addC` or `subB` written to `D` and `DF`; the obligations of the family. -/

namespace Sys2Proof.Machine

open Sys2Proof

/-! ### The borrow (R170, R171) -/

/-- `DF'` is 1 exactly when nothing is borrowed: `D'` is a byte, so the exact law leaves `DF'` no choice. -/
theorem subB_df_iff (m s : Byte) (b : Bool) :
    (subB m s b).df = true ↔ (m.toNat : Int) ≥ s.toNat + (b.toNat : Int) := by
  have hexact := subB_exact m s b
  have hd := (subB m s b).d.isLt
  cases hdf : (subB m s b).df <;> rw [hdf] at hexact <;>
    simp only [Bool.toNat_true, Bool.toNat_false, Bool.false_eq_true, false_iff, true_iff] at hexact ⊢ <;>
    omega

/-- The borrow into SDB and SMB, the negation of `DF`, is `1 - DF` (R172). -/
theorem toNat_not_eq_one_sub (f : Bool) : ((!f).toNat : Int) = 1 - (f.toNat : Int) := by
  cases f <;> rfl

/-! ### What each instruction answers -/

section
variable (s : State)

theorem exec_add : exec .add s = .next
    ((s.emit (.memRead (s.reg s.x) (s.byteAt (s.reg s.x)))).setResult
      (addC s.d (s.byteAt (s.reg s.x)) false)) := rfl

theorem exec_adc : exec .adc s = .next
    ((s.emit (.memRead (s.reg s.x) (s.byteAt (s.reg s.x)))).setResult
      (addC s.d (s.byteAt (s.reg s.x)) s.df)) := rfl

theorem exec_sd : exec .sd s = .next
    ((s.emit (.memRead (s.reg s.x) (s.byteAt (s.reg s.x)))).setResult
      (subB (s.byteAt (s.reg s.x)) s.d false)) := rfl

theorem exec_sdb : exec .sdb s = .next
    ((s.emit (.memRead (s.reg s.x) (s.byteAt (s.reg s.x)))).setResult
      (subB (s.byteAt (s.reg s.x)) s.d (!s.df))) := rfl

theorem exec_sm : exec .sm s = .next
    ((s.emit (.memRead (s.reg s.x) (s.byteAt (s.reg s.x)))).setResult
      (subB s.d (s.byteAt (s.reg s.x)) false)) := rfl

theorem exec_smb : exec .smb s = .next
    ((s.emit (.memRead (s.reg s.x) (s.byteAt (s.reg s.x)))).setResult
      (subB s.d (s.byteAt (s.reg s.x)) (!s.df))) := rfl

end

/-! ### What a read and a result change and keep -/

/-- A result after a read: one event, `D` and `DF` only. -/
theorem emit_setResult_effect {s t : State} {e : Event} {v : DDF} (ht : t = (s.emit e).setResult v) :
    t.d = v.d ∧ t.df = v.df ∧ t.events = e :: s.events ∧
      RegsKeptBut [] s t ∧ MemKept s t ∧ KeptBut [.d, .df] s t := by
  subst ht
  exact ⟨rfl, rfl, rfl, by simp, by simp, by simp⟩

/-- An addition after a read. -/
theorem emit_addC_effect {i : Instr} {s : State} {e : Event} {a b : Byte} {c : Bool}
    (hi : exec i s = .next ((s.emit e).setResult (addC a b c))) :
    ∃ t, exec i s = .next t ∧ t.d.toNat + 256 * t.df.toNat = a.toNat + b.toNat + c.toNat ∧
      t.events = e :: s.events ∧ RegsKeptBut [] s t ∧ MemKept s t ∧ KeptBut [.d, .df] s t := by
  obtain ⟨hd, hdf, hrest⟩ := emit_setResult_effect (s := s) (e := e) (v := addC a b c) rfl
  exact ⟨_, hi, by rw [hd, hdf, addC_exact], hrest⟩

/-- A subtraction after a read, the borrow-in given by its number `n`. -/
theorem emit_subB_effect {i : Instr} {s : State} {e : Event} {m sub : Byte} {b : Bool} {n : Int}
    (hi : exec i s = .next ((s.emit e).setResult (subB m sub b))) (hb : (b.toNat : Int) = n) :
    ∃ t, exec i s = .next t ∧
      (t.d.toNat : Int) - 256 * (1 - (t.df.toNat : Int)) = m.toNat - sub.toNat - n ∧
      (t.df = true ↔ (m.toNat : Int) ≥ sub.toNat + n) ∧
      t.events = e :: s.events ∧ RegsKeptBut [] s t ∧ MemKept s t ∧ KeptBut [.d, .df] s t := by
  subst hb
  obtain ⟨hd, hdf, hrest⟩ := emit_setResult_effect (s := s) (e := e) (v := subB m sub b) rfl
  exact ⟨_, hi, by rw [hd, hdf, subB_exact], by rw [hdf, subB_df_iff], hrest⟩

/-! ### The obligations -/

/-- Settles O22: both write one sum of `D` and the byte read, and differ in the carry-in only. -/
theorem addWithMemory : Obligations.AddWithMemory := fun s =>
  ⟨⟨row_of_head rfl (by decide), emit_addC_effect (exec_add s)⟩,
    row_of_head rfl (by decide), emit_addC_effect (exec_adc s)⟩

/-- Settles O23: the four write one difference, and differ in the order of its operands and in the borrow-in only. -/
theorem subtractWithMemory : Obligations.SubtractWithMemory := by
  intro s i op m sub bin h
  simp only [List.mem_cons, Prod.mk.injEq, List.not_mem_nil, or_false] at h
  obtain ⟨rfl, rfl, rfl, rfl, rfl⟩ | ⟨rfl, rfl, rfl, rfl, rfl⟩ | ⟨rfl, rfl, rfl, rfl, rfl⟩ |
    ⟨rfl, rfl, rfl, rfl, rfl⟩ := h
  · exact ⟨row_of_head rfl (by decide), emit_subB_effect (exec_sd s) rfl⟩
  · exact ⟨row_of_head rfl (by decide), emit_subB_effect (exec_sdb s) (toNat_not_eq_one_sub _)⟩
  · exact ⟨row_of_head rfl (by decide), emit_subB_effect (exec_sm s) rfl⟩
  · exact ⟨row_of_head rfl (by decide), emit_subB_effect (exec_smb s) (toNat_not_eq_one_sub _)⟩

end Sys2Proof.Machine
end

section
/-! PROOFS. Long branch and skip (46_long_branch_skip.md): the Encoding and Cost of an opcode in 0xC0-0xCF, and the
no-operation of the family. -/

namespace Sys2Proof.Machine

open Sys2Proof

/-- In the high nibble 0xC every opcode costs 24, whatever bytes follow it (R115). -/
theorem row_of_long_head {i : Instr} {op : Byte} {bs : List Byte} (he : encode i = op :: bs)
    (hh : opHi op = 0xC#4) : Row i (op :: bs) 24 :=
  ⟨he, by rw [List.headD_cons, cost_eq, if_pos hh]⟩

/-- The opcode fetch is the step's (R112), so nothing is left for the instruction itself (R217). -/
theorem exec_nop (s : State) : exec .nop s = .next s := rfl

/-- Settles O30: the opcode is in the high nibble 0xC, and the instruction answers the state it is given. -/
theorem nopChangesNothing : Obligations.NopChangesNothing :=
  ⟨row_of_long_head rfl (by decide), exec_nop⟩

end Sys2Proof.Machine
end

section
/-! PROOFS. Control and linkage (47_control_io.md): MARK packs the two selectors into `T`, selects, and is then a store
with post-decrement through `R[2]`. -/

namespace Sys2Proof.Machine

open Sys2Proof

/-! ### The packed selectors and `T` (R234, R235) -/

theorem toNat_pack (a b : Reg) : (pack a b).toNat = a.toNat * 16 + b.toNat := by
  rw [pack, BitVec.toNat_append, ← Nat.shiftLeft_add_eq_or_of_lt b.isLt, Nat.shiftLeft_eq]

/-- Writing `T` where the frame leaves it open. -/
@[simp] theorem keptBut_setT {s u : State} {l : List Part} (h : Part.t ∈ l) (v : Byte) :
    KeptBut l s (u.setT v) ↔ KeptBut l s u :=
  forall₂_congr fun f hf => by
    cases f
    case t => exact absurd h hf
    all_goals rfl

/-! ### What MARK answers -/

/-- The selectors as MARK leaves them: the old ones in `T`, and `P` selected as the index register. -/
def State.saveXP (s : State) : State := (s.setT (pack s.x s.p)).setX s.p

theorem State.reg_saveXP (s : State) (k : Reg) : s.saveXP.reg k = s.reg k := rfl

theorem keptBut_saveXP (s : State) : KeptBut [.t, .x] s s.saveXP := by
  simp [State.saveXP]

theorem exec_mark (s : State) :
    exec .mark s = .next ((s.saveXP.writeCell (s.reg 2) (pack s.x s.p)).decReg 2) := rfl

/-! ### The obligation -/

/-- Settles O32: the selectors are saved first, which touches no register and no memory; the rest is the store with
post-decrement of STXD, through `R[2]`. -/
theorem markSavesXAndP : Obligations.MarkSavesXAndP := by
  intro s
  obtain ⟨hcell, hmem, hr2, hevents, hregs, -⟩ := writeCell_decReg_effect (s := s.saveXP) (n := 2) rfl
  refine ⟨row_of_head rfl (by decide), _, exec_mark s, toNat_pack s.x s.p, rfl, hcell, hmem, ?_, hevents, hregs, ?_⟩
  · rw [hr2, toNat_sub_one, State.reg_saveXP]
  · simpa using keptBut_saveXP s

end Sys2Proof.Machine
end

section
/-! PROOFS. Exceptions (60_exceptions.md): IDL and the illegal opcode are the only instructions that change `status`, and
the opcodes 0x00 and 0x68 are the only ones that decode to them. -/

namespace Sys2Proof

/-- The instructions that stop the engine (R300). -/
def Instr.stops : Instr → Bool
  | .idl | .illegal => true
  | _ => false

/-! ### Which opcodes decode to them (R94, R100) -/

theorem decodeShort_stops (n : Reg) (a : Byte) : (decodeShort n a).stops = false := by
  unfold decodeShort; split <;> rfl

theorem decode7_stops (n : Reg) (a : Byte) : (decode7 n a).stops = false := by
  unfold decode7; split <;> rfl

theorem decodeLong_stops (n : Reg) (a b : Byte) : (decodeLong n a b).stops = false := by
  unfold decodeLong; split <;> rfl

theorem decodeF_stops (n : Reg) (a : Byte) : (decodeF n a).stops = false := by
  unfold decodeF; split <;> rfl

/-- The opcode byte alone decides whether the instruction stops the engine: the operand bytes have no say (R90). -/
theorem decodeBytes_stops_eq (op a b : Byte) : (decodeBytes op a b).stops = (decodeBytes op 0 0).stops := by
  unfold decodeBytes
  split <;> simp only [decodeShort_stops, decode7_stops, decodeLong_stops, decodeF_stops]

theorem decodeBytes_stops_iff (op a b : Byte) : (decodeBytes op a b).stops = true ↔ op = 0x00#8 ∨ op = 0x68#8 := by
  rw [decodeBytes_stops_eq]
  revert op
  decide

namespace Machine

/-! ### What an instruction does to `status` -/

@[simp] theorem State.shortBranch_status (s : State) (c : Bool) (a8 : Byte) :
    (s.shortBranch c a8).status = s.status := by
  cases c <;> rfl

@[simp] theorem State.longBranch_status (s : State) (c : Bool) (ahi alo : Byte) :
    (s.longBranch c ahi alo).status = s.status := by
  cases c <;> rfl

@[simp] theorem State.longSkip_status (s : State) (c : Bool) : (s.longSkip c).status = s.status := by
  cases c <;> rfl

@[simp] theorem State.fetchOpcode_status (s : State) : s.fetchOpcode.status = s.status := rfl

@[simp] theorem State.account_status (s : State) (op : Byte) : (s.account op).status = s.status := by
  rw [State.account_eq, State.setClk_status]

theorem exec_status_of_stops {i : Instr} {s u : State} (hi : i.stops = true) (h : exec i s = .next u) :
    u.status ≠ .running := by
  cases i
  case idl | illegal => cases h; exact nofun
  all_goals cases hi

theorem exec_status_of_not_stops {i : Instr} {s u : State} (hi : i.stops = false) (h : exec i s = .next u) :
    u.status = s.status := by
  cases i
  case idl | illegal => cases hi
  case br | bq | bz | bdf | skp | bnq | bnz | bnf => cases h; exact s.shortBranch_status _ _
  case b1 | b2 | b3 | b4 | bn1 | bn2 | bn3 | bn4 => cases h; exact (s.sampleEf _).shortBranch_status _ _
  case lbr | lbq | lbz | lbdf | lbnq | lbnz | lbnf => cases h; exact s.longBranch_status _ _ _
  case lsnq | lsnz | lsnf | lskp | lsie | lsq | lsz | lsdf => cases h; exact s.longSkip_status _
  all_goals cases h; rfl

/-- A running engine is stopped by exactly these instructions, whatever the rest of the state (R300). -/
theorem exec_stops_iff {i : Instr} {s u : State} (hs : s.status = .running) (h : exec i s = .next u) :
    u.status ≠ .running ↔ i.stops = true := by
  cases hi : i.stops with
  | true => exact iff_of_true (exec_status_of_stops hi h) rfl
  | false => exact iff_of_false (not_not_intro ((exec_status_of_not_stops hi h).trans hs)) Bool.false_ne_true

/-! ### The obligation -/

/-- Settles O7: the step is the decoded instruction with its cost accounted; accounting leaves `status` alone, and the
instruction stops the engine exactly when the opcode byte decodes to one of the two that do. -/
theorem onlyTwoOpcodesStop : Obligations.OnlyTwoOpcodesStop := by
  intro s hready
  have ⟨_, hreset, hrun, _⟩ := hready
  obtain ⟨v, hv, hstep⟩ := engineStep_running hreset hrun
  refine ⟨v.account s.opcode, (step_of_ready hready).trans hstep, ?_⟩
  calc (v.account s.opcode).status ≠ .running
    _ ↔ v.status ≠ .running := by rw [State.account_status]
    _ ↔ s.decodeAtPc.stops = true := exec_stops_iff (s.fetchOpcode_status.trans hrun) hv
    _ ↔ s.opcode = 0x00#8 ∨ s.opcode = 0x68#8 := decodeBytes_stops_iff _ _ _

end Machine

end Sys2Proof
end

section
/-! PROOFS. Encoding (30_encoding.md): an opcode byte and the two bytes after it decode to an instruction exactly when
it is well-formed and they spell its encoding; from this the two round trips, and the one illegal opcode. -/

namespace Sys2Proof

/-- `i` is well-formed, and its encoding is as many of the bytes `op`, `a`, `b` as it is long. -/
def Instr.Spells (i : Instr) (op a b : Byte) : Prop :=
  i.wellFormed = true ∧ encode i = [op, a, b].take i.length

/-! ### Decoding what is spelled (R90 to R98) -/

/-- Each opcode byte selects its own row, and the operand bytes stand where the format has them (R91, R94). -/
theorem decodeBytes_of_spells {i : Instr} {op a b : Byte} (h : i.Spells op a b) : decodeBytes op a b = i := by
  obtain ⟨hi, he⟩ := h
  cases i
  case ldn n =>
    have hn : n ≠ 0#4 := by simpa [Instr.wellFormed] using hi
    cases he
    simp [decodeBytes, hn]
  case out p =>
    have hp : p ≠ 0 := by simpa [Instr.wellFormed] using hi
    cases he
    simp [decodeBytes, decodeIo_out p hp]
  case inp p =>
    have hp : p ≠ 0 := by simpa [Instr.wellFormed] using hi
    cases he
    simp [decodeBytes, decodeIo_inp p hp]
  case inc | dec | lda | str | glo | ghi | plo | phi | sep | sex =>
    cases he
    simp [decodeBytes]
  all_goals cases he; rfl

/-! ### Spelling what is decoded (R94, R102) -/

section
variable (n : Reg) (a b : Byte)

theorem decodeShort_spells : (decodeShort n a).Spells (0x3#4 ++ n) a b := by
  obtain ⟨n⟩ := n
  fin_cases n <;> exact ⟨rfl, rfl⟩

theorem decode7_spells : (decode7 n a).Spells (0x7#4 ++ n) a b := by
  obtain ⟨n⟩ := n
  fin_cases n <;> exact ⟨rfl, rfl⟩

theorem decodeLong_spells : (decodeLong n a b).Spells (0xC#4 ++ n) a b := by
  obtain ⟨n⟩ := n
  fin_cases n <;> exact ⟨rfl, rfl⟩

theorem decodeF_spells : (decodeF n a).Spells (0xF#4 ++ n) a b := by
  obtain ⟨n⟩ := n
  fin_cases n <;> exact ⟨rfl, rfl⟩

theorem decodeIo_spells : (decodeIo (0x6#4 ++ n)).Spells (0x6#4 ++ n) a b := by
  obtain ⟨n⟩ := n
  fin_cases n <;> exact ⟨rfl, rfl⟩

theorem decodeBytes_zero_spells : (decodeBytes (0x0#4 ++ n) a b).Spells (0x0#4 ++ n) a b := by
  obtain ⟨n⟩ := n
  fin_cases n <;> exact ⟨rfl, rfl⟩

end

/-- Each of the sixteen high nibbles is one family of the opcode map (R94). -/
theorem decodeBytes_append_spells (h n : Reg) (a b : Byte) : (decodeBytes (h ++ n) a b).Spells (h ++ n) a b := by
  obtain ⟨h⟩ := h
  fin_cases h
  -- The high nibbles with a decoder of their own, from 0xF down to 0x0; in the others the low nibble is the operand.
  on_goal 16 => simpa [decodeBytes] using decodeF_spells n a b
  on_goal 13 => simpa [decodeBytes] using decodeLong_spells n a b
  on_goal 8 => simpa [decodeBytes] using decode7_spells n a b
  on_goal 7 => simpa [decodeBytes] using decodeIo_spells n a b
  on_goal 4 => simpa [decodeBytes] using decodeShort_spells n a b
  on_goal 1 => exact decodeBytes_zero_spells n a b
  all_goals exact ⟨by simp [decodeBytes, Instr.wellFormed], by simp [decodeBytes, encode, Instr.length]⟩

/-- The two nibbles of the opcode are put together again. -/
theorem decodeBytes_spells (op a b : Byte) : (decodeBytes op a b).Spells op a b := by
  rw [← opHi_opLo_append op]
  exact decodeBytes_append_spells (opHi op) (opLo op) a b

/-! ### Byte strings (R90) -/

theorem length_encode (i : Instr) : (encode i).length = i.length := by
  cases i <;> rfl

theorem Instr.length_le_three (i : Instr) : i.length ≤ 3 := by
  unfold Instr.length; split <;> decide

theorem encode_ne_nil (i : Instr) : encode i ≠ [] := by
  cases i <;> exact nofun

/-- The three bytes that `decode` looks at are the string's own, as far as it reaches. -/
theorem take_lookahead {op : Byte} {rest : List Byte} {n : Nat} (hr : n ≤ rest.length + 1) (hn : n ≤ 3) :
    [op, rest.getD 0 0, rest.getD 1 0].take n = (op :: rest).take n := by
  obtain _ | _ | _ | _ | n := n
  · rfl
  · rfl
  · obtain _ | ⟨a, rest⟩ := rest
    · simp at hr
    · rfl
  · obtain _ | ⟨a, _ | ⟨b, rest⟩⟩ := rest
    · simp at hr
    · simp at hr
    · rfl
  · omega

theorem decode_of_spells {i : Instr} {op : Byte} {rest : List Byte}
    (h : i.Spells op (rest.getD 0 0) (rest.getD 1 0)) (hl : i.length ≤ rest.length + 1) :
    decode (op :: rest) = .ok (i, rest.drop (i.length - 1)) := by
  obtain rfl := decodeBytes_of_spells h
  exact if_pos hl

/-! ### The obligations -/

/-- Settles O2: the encoding's own bytes spell the instruction, and its length is that of its encoding. -/
theorem decodeOfEncodeIsTheInstruction : Obligations.DecodeOfEncodeIsTheInstruction := by
  intro i rest hi
  obtain ⟨op, ops, he⟩ := List.exists_cons_of_ne_nil (encode_ne_nil i)
  have hlen : ops.length + 1 = i.length := by rw [← length_encode, he, List.length_cons]
  have hreach : i.length ≤ (ops ++ rest).length + 1 := by rw [List.length_append]; omega
  have hspells : i.Spells op ((ops ++ rest).getD 0 0) ((ops ++ rest).getD 1 0) := by
    refine ⟨hi, ?_⟩
    rw [take_lookahead hreach i.length_le_three, ← List.cons_append, ← he, ← length_encode, List.take_left]
  rw [he, List.cons_append, decode_of_spells hspells hreach, ← hlen, Nat.add_sub_cancel, List.drop_left]

/-- Settles O3. -/
theorem encodeOfDecodeIsTheBytes : Obligations.EncodeOfDecodeIsTheBytes := decodeBytes_spells

/-- Settles O1: the bytes of each word spell its instruction, and none is left over. -/
theorem writtenWordsDecode : Obligations.WrittenWordsDecode := by
  and_intros <;> exact decode_of_spells ⟨rfl, rfl⟩ (by decide)

theorem Instr.stops_iff (i : Instr) : i.stops = true ↔ i = .idl ∨ i = .illegal := by
  cases i <;> simp [Instr.stops]

/-- The illegal instruction is one of the two that stop the engine, and 0x00 decodes to the other (R100). -/
theorem decodeBytes_eq_illegal_iff (op a b : Byte) : decodeBytes op a b = .illegal ↔ op = 0x68#8 := by
  constructor
  · intro h
    obtain rfl | hop := (decodeBytes_stops_iff op a b).mp (by rw [h]; rfl)
    · cases h
    · exact hop
  · rintro rfl
    rfl

end Sys2Proof
end

section
/-! SUPPORT. What a move of the schedule can do, one case for each of its eight kinds; and the frame rules of the
updates that only the host's side makes. -/

namespace Sys2Proof.Machine

open Sys2Proof

/-! ### The schedule (R342) -/

/-- The moves to come are `ms`. -/
def State.setSchedule (s : State) (ms : List Move) : State := { s with host := { s.host with schedule := ms } }

@[simp] theorem State.setSchedule_tone (s : State) (ms : List Move) : (s.setSchedule ms).tone = s.tone := rfl
@[simp] theorem State.setSchedule_env (s : State) (ms : List Move) : (s.setSchedule ms).env = s.env := rfl

theorem State.setSchedule_eq_self {s : State} {ms : List Move} (h : s.host.schedule = ms) : s.setSchedule ms = s := by
  subst h
  rfl

theorem step_eq_move {s : State} {m : Move} {ms : List Move} (h : s.host.schedule = m :: ms) :
    step s = move m (s.setSchedule ms) := step_of_scheduled h

/-- A step is the engine's turn with nothing scheduled, or the first scheduled move. -/
theorem step_next {s t : State} (h : step s = .next t) :
    (s.host.schedule = [] ∧ engineTurn s = .next t) ∨
      ∃ m ms, s.host.schedule = m :: ms ∧ move m (s.setSchedule ms) = .next t := by
  cases hs : s.host.schedule with
  | nil => exact .inl ⟨rfl, by rwa [step_of_idle hs] at h⟩
  | cons m ms => exact .inr ⟨m, ms, rfl, by rwa [step_eq_move hs] at h⟩

/-! ### The moves (R342) -/

/-- What each kind of move makes of the state, when it completes. -/
inductive MoveEffect (s : State) : Move → State → Prop where
  | engine {u : State} (h : engineTurn s = .next u) : MoveEffect s .engine u
  | run (b : Int) : MoveEffect s (.run b) ((s.setClk 0).setPhase (.running b))
  | reset (h : ∀ b, s.host.phase ≠ .running b) : MoveEffect s .reset s.resetEngine
  | load (a : Word) (v : Byte) : MoveEffect s (.load a v) (s.poke a v)
  | mute : MoveEffect s .mute s.mute
  | setRegister (selector data : Byte) : MoveEffect s (.setRegister selector data) (s.setRegister selector data)
  | produceSample : MoveEffect s .produceSample s.produceSample
  | routeTone : MoveEffect s .routeTone s.routeTone

theorem betweenRuns_of_idle {s : State} (h : ∀ b, s.host.phase ≠ .running b)
    (o : Host.Outcome State Fault Refusal) : betweenRuns s o = o := by
  unfold betweenRuns
  cases hp : s.host.phase with
  | stepping | returned => rfl
  | running b => exact absurd hp (h b)

theorem betweenRuns_of_running {s : State} {b : Int} (h : s.host.phase = .running b)
    (o : Host.Outcome State Fault Refusal) : betweenRuns s o = .refused .hostMoveDuringRun := by
  rw [betweenRuns, h]

theorem enterRun_of_resetDone {s : State} (h : s.host.resetDone = true) (b : Int) :
    enterRun b s = .next ((s.setClk 0).setPhase (.running b)) := if_pos h

theorem enterRun_next {s u : State} {b : Int} (h : enterRun b s = .next u) :
    u = (s.setClk 0).setPhase (.running b) := by
  unfold enterRun at h
  split at h
  · cases h; rfl
  · cases h

theorem move_next {m : Move} {s u : State} (h : move m s = .next u) : MoveEffect s m u := by
  cases m with
  | engine => exact .engine h
  | run b =>
    obtain ⟨-, hrun⟩ := betweenRuns_next h
    rw [enterRun_next hrun]
    exact .run b
  | reset =>
    obtain ⟨hidle, hreset⟩ := betweenRuns_next h
    cases hreset
    exact .reset hidle
  | load a v =>
    obtain ⟨-, hload⟩ := betweenRuns_next h
    cases hload
    exact .load a v
  | mute => cases h; exact .mute
  | setRegister selector data => cases h; exact .setRegister selector data
  | produceSample => cases h; exact .produceSample
  | routeTone => cases h; exact .routeTone

/-! ### One sample, seen from the machine (R263, R282) -/

/-- The events of one sample, newest first: the pair, and before it the clip report if one is made. -/
def Sampled.events (a : Sampled) : List Event :=
  match a.report with
  | none => [.sample a.left a.right]
  | some n => [.sample a.left a.right, .clipReport n]

theorem State.produceSample_eq (s : State) :
    s.produceSample =
      { s with
        tone := (s.tone.produceSample ToneParams.default).tone
        events := (s.tone.produceSample ToneParams.default).events ++ s.events } := by
  unfold State.produceSample Sampled.events
  cases h : (s.tone.produceSample ToneParams.default).report <;> simp only [h] <;> rfl

/-! ### Frames of the host's updates -/

section
variable {s u : State} {l : List Part}

@[simp] theorem regsKeptBut_setSchedule (k : List Reg) (ms : List Move) :
    RegsKeptBut k s (u.setSchedule ms) ↔ RegsKeptBut k s u := Iff.rfl
@[simp] theorem regsKeptBut_setClk (k : List Reg) (n : Nat) :
    RegsKeptBut k s (u.setClk n) ↔ RegsKeptBut k s u := Iff.rfl
@[simp] theorem regsKeptBut_setPhase (k : List Reg) (ph : RunPhase) :
    RegsKeptBut k s (u.setPhase ph) ↔ RegsKeptBut k s u := Iff.rfl

@[simp] theorem memKept_setSchedule (ms : List Move) : MemKept s (u.setSchedule ms) ↔ MemKept s u := Iff.rfl
@[simp] theorem memKept_setClk (n : Nat) : MemKept s (u.setClk n) ↔ MemKept s u := Iff.rfl
@[simp] theorem memKept_setPhase (ph : RunPhase) : MemKept s (u.setPhase ph) ↔ MemKept s u := Iff.rfl

@[simp] theorem keptBut_setSchedule (h : Part.host ∈ l) (ms : List Move) :
    KeptBut l s (u.setSchedule ms) ↔ KeptBut l s u :=
  forall₂_congr fun f hf => by
    cases f
    case host => exact absurd h hf
    all_goals rfl

@[simp] theorem keptBut_setPhase (h : Part.host ∈ l) (ph : RunPhase) :
    KeptBut l s (u.setPhase ph) ↔ KeptBut l s u :=
  forall₂_congr fun f hf => by
    cases f
    case host => exact absurd h hf
    all_goals rfl

@[simp] theorem keptBut_setClk (h : Part.clk ∈ l) (n : Nat) :
    KeptBut l s (u.setClk n) ↔ KeptBut l s u :=
  forall₂_congr fun f hf => by
    cases f
    case clk => exact absurd h hf
    all_goals rfl

end

end Sys2Proof.Machine
end

section
/-! PROOFS. The invariant of the machine (10_state.md section 7): the tone operations keep the generator's part of it,
an instruction step the engine's, and so every move and every step keeps the whole. -/

namespace Sys2Proof.Machine

open Sys2Proof

/-! ### A silent channel's count (R52) -/

theorem silentAtZero_mute (g : Tone) : SilentAtZero g.mute := fun c _ => by
  rw [Tone.mute_chan]; rfl

/-- Writing a channel that is itself at 0 when silent. -/
theorem silentAtZero_setChan {g : Tone} (hg : SilentAtZero g) (c : Chan) {v : Channel}
    (hv : v.silent = true → v.count = 0) : SilentAtZero (g.setChan c v) := by
  intro k hk
  rw [Tone.chan_setChan] at hk ⊢
  by_cases h : k = c
  · rw [if_pos h] at hk ⊢
    exact hv hk
  · rw [if_neg h] at hk ⊢
    exact hg k hk

/-- A register write changes no volume and no count, but for the volume commit, which checks for silence (R260). -/
theorem silentAtZero_setRegister {g : Tone} (hg : SilentAtZero g) (draw sel data : Byte) :
    SilentAtZero (g.setRegister draw sel data) := by
  unfold Tone.setRegister
  split
  · exact hg
  · exact silentAtZero_setChan hg _ (hg (selectorChan sel))
  · exact hg
  · exact silentAtZero_setChan hg _ (Channel.zeroCheck_count _)
  · exact silentAtZero_setChan hg _ (hg (selectorChan sel))
  · exact hg

/-- A sample leaves a silent channel alone (R264). -/
theorem silentAtZero_produceSample {g : Tone} (hg : SilentAtZero g) (P : ToneParams) :
    SilentAtZero (g.produceSample P).tone := by
  intro c hc
  rw [Tone.produceSample_chan] at hc ⊢
  rw [Channel.advance_silent] at hc
  rw [Channel.advance_of_silent hc]
  exact hg c hc

/-- The sample count starts again before it reaches 48000 (R281). -/
theorem sampleCount_produceSample_lt {g : Tone} (hg : g.sampleCount < 48000) (P : ToneParams) :
    (g.produceSample P).tone.sampleCount < 48000 := by
  rw [Tone.produceSample_sampleCount]
  split <;> omega

/-! ### The engine's part (R118, R301) -/

theorem cost_cases (op : Byte) : cost op = 24 ∨ cost op = 16 := by
  rw [cost_eq]
  split
  · exact .inl rfl
  · exact .inr rfl

theorem State.account_clk_cases (s : State) (op : Byte) :
    (s.account op).clk = s.clk ∨ (s.account op).clk = s.clk + 24 ∨ (s.account op).clk = s.clk + 16 := by
  by_cases h : s.status = .running
  · rw [State.account_running op h, State.setClk_clk]
    obtain hc | hc := cost_cases op <;> simp [hc]
  · exact .inl (by rw [State.account_stopped op h])

/-- An instruction step changes what the invariant speaks of as one instruction may and one accounting does. -/
theorem engineStep_effect {s u : State} (h : engineStep s = .next u) :
    u.tone = s.tone ∧ u.host = s.host ∧ (Memory.wf s.mem = true → Memory.wf u.mem = true) ∧
      (u.clk = s.clk ∨ u.clk = s.clk + 24 ∨ u.clk = s.clk + 16) ∧
      (u.status = .running ∨ u.status = .halted ∨ ∃ a, u.status = .illegalOpcode 0x68 a) := by
  obtain ⟨-, hrun, v, hv, rfl⟩ := engineStep_next h
  obtain ⟨hclk, htone, hhost, hmem, hstatus⟩ := exec_effect hv
  have hacc := v.account_clk_cases s.opcode
  rw [State.account_status, State.account_eq]
  rw [hclk] at hacc
  refine ⟨htone, hhost, hmem, hacc, ?_⟩
  rwa [State.fetchOpcode_status, hrun] at hstatus

/-! ### Every move keeps the invariant -/

/-- When the generator alone changes, the invariant is kept if its part about the generator is. -/
theorem Inv.of_tone {s u : State} (hs : Inv s) (hmem : u.mem = s.mem) (hclk : u.clk = s.clk)
    (hphase : u.host.phase = s.host.phase) (hstatus : u.status = s.status) (hsilent : SilentAtZero u.tone)
    (hcount : u.tone.sampleCount < 48000) : Inv u where
  mem_wf := by rw [hmem]; exact hs.mem_wf
  silent_at_zero := hsilent
  sample_count := hcount
  clk_mod := by rw [hclk]; exact hs.clk_mod
  clk_bound := by rw [hclk, hphase]; exact hs.clk_bound
  illegal_op := by rw [hstatus]; exact hs.illegal_op

theorem Inv.setSchedule {s : State} (hs : Inv s) (ms : List Move) : Inv (s.setSchedule ms) :=
  hs.of_tone rfl rfl rfl rfl hs.silent_at_zero hs.sample_count

/-- An instruction is begun inside `Run(b)` only below `b`, so at most at `b - 1`, and costs at most 24: `clk` ends at
`b + 23` at most (R118). -/
theorem Inv.engineStep {s u : State} (hs : Inv s) (hb : ∀ b, s.host.phase = .running b → (s.clk : Int) < b)
    (h : engineStep s = .next u) : Inv u := by
  obtain ⟨htone, hhost, hmem, hclk, hstatus⟩ := engineStep_effect h
  refine ⟨hmem hs.mem_wf, by rw [htone]; exact hs.silent_at_zero, by rw [htone]; exact hs.sample_count, ?_, ?_, ?_⟩
  · have := hs.clk_mod
    omega
  · intro b hrun _
    have := hb b (by rwa [hhost] at hrun)
    omega
  · intro op a hop
    obtain hst | hst | ⟨a', hst⟩ := hstatus <;> rw [hst] at hop <;> cases hop
    rfl

theorem Inv.engineTurn {s u : State} (hs : Inv s) (h : engineTurn s = .next u) : Inv u := by
  obtain ⟨hstep, -, hb⟩ | ⟨b, -, -, rfl⟩ | ⟨-, rfl⟩ := engineTurn_next h
  · exact hs.engineStep hb hstep
  · exact { hs with clk_bound := nofun }
  · exact hs

theorem Inv.move {s u : State} {m : Move} (hs : Inv s) (h : MoveEffect s m u) : Inv u := by
  cases h with
  | engine h => exact hs.engineTurn h
  | run b =>
    refine { hs with clk_mod := rfl, clk_bound := ?_ }
    intro b' _ hb
    simp only [State.setPhase_clk, State.setClk_clk]
    omega
  | reset h => exact { hs with clk_bound := fun b hb => absurd hb (h b), illegal_op := nofun }
  | load a v => exact { hs with mem_wf := s.poke_wf a v hs.mem_wf }
  | mute => exact hs.of_tone rfl rfl rfl rfl (silentAtZero_mute _) hs.sample_count
  | setRegister selector data =>
    obtain ⟨-, -, hcount⟩ := s.tone.setRegister_rest (Config.stagedDraw s.env.draws) selector data
    exact hs.of_tone rfl rfl rfl rfl (silentAtZero_setRegister hs.silent_at_zero _ _ _)
      (hcount.trans_lt hs.sample_count)
  | produceSample =>
    rw [State.produceSample_eq]
    exact hs.of_tone rfl rfl rfl rfl (silentAtZero_produceSample hs.silent_at_zero _)
      (sampleCount_produceSample_lt hs.sample_count _)
  | routeTone => exact hs.of_tone rfl rfl rfl rfl hs.silent_at_zero hs.sample_count

/-! ### The obligations -/

/-- Settles O48: every channel is at 0, nothing is counted, no `Run` call is in progress and nothing has stopped. -/
theorem invariantHoldsAtReset : Obligations.InvariantHoldsAtReset where
  mem_wf := reset_mem_wf
  silent_at_zero c _ := by
    show (Vector.replicate 32 Channel.zero)[c.toFin].count = 0
    simp [Channel.zero]
  sample_count := by decide
  clk_mod := rfl
  clk_bound := nofun
  illegal_op := nofun

/-- Settles O49: the step is the engine's turn or the first move of the schedule, and both keep the invariant. -/
theorem stepKeepsInvariant : Obligations.StepKeepsInvariant := by
  intro s t hs h
  obtain ⟨-, hturn⟩ | ⟨m, ms, -, hmove⟩ := step_next h
  · exact hs.engineTurn hturn
  · exact (hs.setSchedule ms).move (move_next hmove)

end Sys2Proof.Machine
end

section
/-! SUPPORT. The fetch and the accounting of an instruction step: what each leaves alone, the instruction that the bytes
at `R[P]` spell, and the frame rules of the two stops. -/

namespace Sys2Proof.Machine

open Sys2Proof

/-! ### Accounting (R115) -/

section
variable (s : State) (op : Byte)

@[simp] theorem State.account_d : (s.account op).d = s.d := by rw [State.account_eq]; rfl
@[simp] theorem State.account_pc : (s.account op).pc = s.pc := by rw [State.account_eq]; rfl
@[simp] theorem State.account_byteAt (a : Word) : (s.account op).byteAt a = s.byteAt a := by
  rw [State.account_eq]; rfl

theorem State.account_eq_ite :
    s.account op = if s.status = .running then { s with clk := s.clk + cost op } else s := by
  split
  case isTrue h => exact State.account_running op h
  case isFalse h => exact State.account_stopped op h

end

theorem opHi_eq_iff (op : Byte) : opHi op = 0xC#4 ↔ op.toNat / 16 = 12 := by
  have := op.isLt
  rw [← BitVec.toNat_inj, opHi, BitVec.extractLsb'_toNat, Nat.shiftRight_eq_div_pow]
  simp only [BitVec.toNat_ofNat]
  omega

theorem cost_eq_ite (op : Byte) : cost op = if op.toNat / 16 = 12 then 24 else 16 := by
  simp only [cost_eq, opHi_eq_iff]

/-! ### The instruction at `R[P]` (R90, R111) -/

theorem State.decodeAtPc_of_bytesAtPc {i : Instr} {s : State} (hi : i.wellFormed = true) (h : BytesAtPc i s) :
    s.decodeAtPc = i := by
  refine decodeBytes_of_spells ⟨hi, List.ext_getElem ?_ fun k hk _ => ?_⟩
  · simp [length_encode, i.length_le_three]
  · have hbyte := h k hk
    have hk3 : k < 3 := hk.trans_le (length_encode i ▸ i.length_le_three)
    rw [List.getD_eq_getElem _ _ hk] at hbyte
    rw [List.getElem_take, ← hbyte]
    interval_cases k <;> simp [State.opcode]

theorem State.decodeAtPc_of_opcode {i : Instr} {s : State} (hi : i.wellFormed = true) (h : encode i = [s.opcode]) :
    s.decodeAtPc = i := by
  have hlen : i.length = 1 := by rw [← length_encode, h]; rfl
  exact decodeBytes_of_spells ⟨hi, by rw [hlen, h]; rfl⟩

/-- An initialised running engine executes the instruction at `R[P]` on the state after the fetch (R112). -/
theorem engineStep_eq {i : Instr} {s v : State} (hreset : s.host.resetDone = true) (hrun : s.status = .running)
    (hi : s.decodeAtPc = i) (hv : exec i s.fetchOpcode = .next v) : engineStep s = .next (v.account s.opcode) := by
  subst hi
  obtain ⟨v', hv', hstep⟩ := engineStep_running hreset hrun
  cases hv.symm.trans hv'
  exact hstep

/-- A ready engine's step is that instruction with its cost accounted. -/
theorem EngineReady.step_eq {i : Instr} {s v : State} (h : EngineReady s) (hi : s.decodeAtPc = i)
    (hv : exec i s.fetchOpcode = .next v) : step s = .next (v.account s.opcode) :=
  have ⟨_, hreset, hrun, _⟩ := h
  (step_of_ready h).trans (engineStep_eq hreset hrun hi hv)

/-- It completes, and stops the engine for the opcodes 0x00 and 0x68 only (R300). -/
theorem EngineReady.step_next {s : State} (h : EngineReady s) :
    ∃ v, exec s.decodeAtPc s.fetchOpcode = .next v ∧ step s = .next (v.account s.opcode) ∧
      (v.status ≠ .running ↔ s.opcode = 0x00#8 ∨ s.opcode = 0x68#8) := by
  have ⟨_, _, hrun, _⟩ := h
  obtain ⟨v, hv, -⟩ := exec_next s.decodeAtPc s.fetchOpcode
  refine ⟨v, hv, h.step_eq rfl hv, ?_⟩
  rw [exec_stops_iff (s.fetchOpcode_status.trans hrun) hv]
  exact decodeBytes_stops_iff _ _ _

/-! ### Fetching (R111) -/

/-- One event, and the one register stepped on. -/
theorem emit_incReg_effect {s t : State} {e : Event} {n : Reg} (ht : t = (s.emit e).incReg n) :
    t.reg n = s.reg n + 1 ∧ t.events = e :: s.events ∧
      RegsKeptBut [n] s t ∧ MemKept s t ∧ KeptBut [] s t := by
  subst ht
  exact ⟨by simp, rfl, by simp, by simp, by simp⟩

theorem fetchOpcode_effect (s : State) :
    s.fetchOpcode.reg s.p = s.reg s.p + 1 ∧
      s.fetchOpcode.events = .memRead (s.reg s.p) (s.byteAt (s.reg s.p)) :: s.events ∧
      RegsKeptBut [s.p] s s.fetchOpcode ∧ MemKept s s.fetchOpcode ∧ KeptBut [] s s.fetchOpcode :=
  emit_incReg_effect rfl

/-! ### Stopping (R301, R302) -/

section
variable {s u : State} {l : List Part}

@[simp] theorem regsKeptBut_setStatus (k : List Reg) (st : Status) :
    RegsKeptBut k s { u with status := st } ↔ RegsKeptBut k s u := Iff.rfl

@[simp] theorem memKept_setStatus (st : Status) : MemKept s { u with status := st } ↔ MemKept s u := Iff.rfl

@[simp] theorem keptBut_setStatus (h : Part.status ∈ l) (st : Status) :
    KeptBut l s { u with status := st } ↔ KeptBut l s u :=
  forall₂_congr fun f hf => by
    cases f
    case status => exact absurd h hf
    all_goals rfl

end

/-- A frame is open to more parts than it names. -/
theorem KeptBut.weaken {l l' : List Part} {s u : State} (h : KeptBut l s u) (hl : l ⊆ l') : KeptBut l' s u :=
  fun f hf => h f fun hf' => hf (hl hf')

theorem KeptBut.trans {l : List Part} {s u t : State} (h : KeptBut l s u) (h' : KeptBut l u t) : KeptBut l s t :=
  fun f hf => by
    have hsu := h f hf
    have hut := h' f hf
    cases f <;> exact hut.trans hsu

theorem exec_idl (s : State) : exec .idl s = .next ({ s with status := .halted }.emit .halt) := rfl

theorem exec_illegal (s : State) :
    exec .illegal s = .next
      ({ s with status := .illegalOpcode 0x68 (s.pc - 1) }.emit (.illegalOpcode 0x68 (s.pc - 1))) := rfl

end Sys2Proof.Machine
end

section
/-! PROOFS. The instruction step (40_engine.md) and its two stops (60_exceptions.md): what it executes, what it costs,
and what it leaves behind when it stops. -/

namespace Sys2Proof.Machine

open Sys2Proof

/-- Settles O5: the bytes at `R[P]` spell the instruction; a stopped engine answers the fault of its status. -/
theorem stepRunsTheDecodedInstruction : Obligations.StepRunsTheDecodedInstruction := by
  refine ⟨fun i s hi hready hbytes => ?_, fun s hidle hphase hreset hstatus => ?_⟩
  · obtain ⟨t, ht, -⟩ := exec_next i s.fetchOpcode
    refine ⟨t, ht, ?_⟩
    rw [hready.step_eq (State.decodeAtPc_of_bytesAtPc hi hbytes) ht, State.account_eq_ite]
  · rw [step_of_idle hidle, engineTurn_of_stepping hphase, engineStep, if_pos hreset]
    cases hst : s.status with
    | running => exact absurd hst hstatus
    | halted => exact ⟨_, rfl⟩
    | illegalOpcode op a => exact ⟨_, rfl⟩

/-- Settles O6: both fetches are a read through `R[P]` with post-increment. -/
theorem fetchReadsAndAdvances : Obligations.FetchReadsAndAdvances := fun _ s =>
  ⟨⟨rfl, fetchOpcode_effect s⟩, emit_incReg_effect rfl⟩

/-- Settles O8: `clk` is the instruction's, which leaves it alone, and the cost of the opcode unless it stopped. -/
theorem stepCostDependsOnOpcodeOnly : Obligations.StepCostDependsOnOpcodeOnly := by
  intro s hready
  obtain ⟨v, hv, hstep, hstop⟩ := hready.step_next
  have hclk : v.clk = s.clk := (exec_effect hv).clk
  refine ⟨_, hstep, ?_⟩
  by_cases hop : s.opcode = 0x00#8 ∨ s.opcode = 0x68#8
  · rw [if_pos hop, State.account_stopped _ (hstop.mpr hop), hclk]
  · rw [if_neg hop, State.account_running _ (not_not.mp (mt hstop.mp hop)), State.setClk_clk, hclk, cost_eq_ite]
    split <;> rfl

/-- Of the instructions that stop the engine, 0x68 alone stops it so (R301, R302). -/
theorem exec_illegalOpcode_iff {i : Instr} {s u : State} (hs : s.status = .running) (h : exec i s = .next u) :
    (∃ op a, u.status = .illegalOpcode op a) ↔ i = .illegal := by
  constructor
  · rintro ⟨op, a, hst⟩
    obtain rfl | rfl := i.stops_iff.mp ((exec_stops_iff hs h).mp (by rw [hst]; exact nofun))
    · cases h
      cases hst
    · rfl
  · rintro rfl
    cases h
    exact ⟨_, _, rfl⟩

/-- Settles O4: the step's status is that of the decoded instruction, which is illegal for the opcode 0x68 only. -/
theorem onlyOpcode68IsIllegal : Obligations.OnlyOpcode68IsIllegal := by
  refine ⟨decodeBytes_eq_illegal_iff, fun s hready => ?_⟩
  have ⟨_, _, hrun, _⟩ := hready
  obtain ⟨v, hv, hstep, -⟩ := hready.step_next
  refine ⟨_, hstep, ?_⟩
  rw [State.account_status, exec_illegalOpcode_iff (s.fetchOpcode_status.trans hrun) hv, State.decodeAtPc,
    decodeBytes_eq_illegal_iff]

/-! ### The two stops -/

/-- A stop: one event, and `status` only. -/
theorem stop_effect {s t : State} {st : Status} {e : Event} (ht : t = ({ s with status := st } : State).emit e) :
    t.status = st ∧ t.events = e :: s.events ∧ RegsKeptBut [] s t ∧ MemKept s t ∧ KeptBut [.status] s t := by
  subst ht
  exact ⟨rfl, rfl, by simp, by simp, by simp⟩

/-- Settles O37: both are one stop, and differ in its reason only. -/
theorem stoppingInstructionsStop : Obligations.StoppingInstructionsStop := fun s =>
  ⟨⟨row_of_head rfl (by decide), _, exec_idl s, stop_effect rfl⟩,
    row_of_head rfl (by decide), _, exec_illegal s, stop_effect rfl⟩

/-- A stop right after the opcode fetch is not accounted, so it leaves what the fetch left, but for `status`. -/
theorem EngineReady.step_stops {i : Instr} {s : State} {st : Status} {e : Event} (h : EngineReady s)
    (hi : s.decodeAtPc = i) (hst : st ≠ .running)
    (hv : exec i s.fetchOpcode = .next (({ s.fetchOpcode with status := st } : State).emit e)) :
    ∃ t, step s = .next t ∧ t.status = st ∧ t.reg s.p = s.reg s.p + 1 ∧
      RegsKeptBut [s.p] s t ∧ MemKept s t ∧ KeptBut [.status] s t := by
  obtain ⟨hpc, -, hregs, hmem, hparts⟩ := fetchOpcode_effect s
  have hstep := h.step_eq hi hv
  rw [State.account_stopped _ hst] at hstep
  exact ⟨_, hstep, rfl, hpc, hregs, hmem, by simpa using hparts.weaken (by simp)⟩

/-- Settles O38: `R[P]` has moved past the opcode, so one before it is the opcode's address. -/
theorem stoppingStepOnlyFetches : Obligations.StoppingStepOnlyFetches := by
  rintro s st hready (⟨hop, rfl⟩ | ⟨hop, rfl⟩)
  · exact hready.step_stops (State.decodeAtPc_of_opcode rfl (by rw [hop]; rfl)) nofun (exec_idl _)
  · have hexec := exec_illegal s.fetchOpcode
    rw [State.pc_fetchOpcode, BitVec.add_sub_cancel] at hexec
    exact hready.step_stops (State.decodeAtPc_of_opcode rfl (by rw [hop]; rfl)) nofun hexec

end Sys2Proof.Machine
end

section
/-! PROOFS. Control, linkage, input and output (47_control_io.md): what each instruction answers, what it changes and
keeps, and that RET undoes MARK. -/

namespace Sys2Proof.Machine

open Sys2Proof

/-! ### Frames of `Q`, `IE` and the environment -/

section
variable {s u : State} {l : List Part}

@[simp] theorem regsKeptBut_latchQ (k : List Reg) (b : Bool) :
    RegsKeptBut k s (u.latchQ b) ↔ RegsKeptBut k s u := Iff.rfl
@[simp] theorem regsKeptBut_setIE (k : List Reg) (b : Bool) :
    RegsKeptBut k s (u.setIE b) ↔ RegsKeptBut k s u := Iff.rfl
@[simp] theorem regsKeptBut_inPort (k : List Reg) (p : Port) :
    RegsKeptBut k s (u.inPort p) ↔ RegsKeptBut k s u := Iff.rfl

@[simp] theorem memKept_latchQ (b : Bool) : MemKept s (u.latchQ b) ↔ MemKept s u := Iff.rfl
@[simp] theorem memKept_setIE (b : Bool) : MemKept s (u.setIE b) ↔ MemKept s u := Iff.rfl

@[simp] theorem memKeptBut_setD (a : Word) (v : Byte) :
    MemKeptBut a s (u.setD v) ↔ MemKeptBut a s u := Iff.rfl
@[simp] theorem memKeptBut_inPort (a : Word) (p : Port) :
    MemKeptBut a s (u.inPort p) ↔ MemKeptBut a s u := Iff.rfl

@[simp] theorem keptBut_latchQ (h : Part.q ∈ l) (b : Bool) : KeptBut l s (u.latchQ b) ↔ KeptBut l s u :=
  forall₂_congr fun f hf => by
    cases f
    case q => exact absurd h hf
    all_goals rfl

@[simp] theorem keptBut_setIE (h : Part.ie ∈ l) (b : Bool) : KeptBut l s (u.setIE b) ↔ KeptBut l s u :=
  forall₂_congr fun f hf => by
    cases f
    case ie => exact absurd h hf
    all_goals rfl

@[simp] theorem keptBut_inPort (h : Part.env ∈ l) (p : Port) : KeptBut l s (u.inPort p) ↔ KeptBut l s u :=
  forall₂_congr fun f hf => by
    cases f
    case env => exact absurd h hf
    all_goals rfl

end

/-! ### The environment's lined-up answers (R39, R40) -/

theorem Env.portValue_of_cons {e : Env} {v : Byte} {vs : List Byte} (h : e.portIn = v :: vs) (p : Port) :
    e.portValue p = v := by
  rw [Env.portValue, h]

/-! ### The packed byte (R31, R67) -/

theorem toNat_packHi (v : Byte) : (packHi v).toNat = v.toNat / 16 := by
  have := v.isLt
  rw [packHi, BitVec.extractLsb'_toNat, Nat.shiftRight_eq_div_pow]
  omega

theorem toNat_packLo (v : Byte) : (packLo v).toNat = v.toNat % 16 := by
  simp [packLo]

/-! ### What each instruction answers -/

theorem exec_req (s : State) : exec .req s = .next (s.latchQ false) := rfl

theorem exec_seq (s : State) : exec .seq s = .next (s.latchQ true) := rfl

theorem exec_ret (s : State) : exec .ret s = .next (s.popXP.setIE true) := rfl

theorem exec_dis (s : State) : exec .dis s = .next (s.popXP.setIE false) := rfl

theorem exec_out (p : Port) (s : State) :
    exec (.out p) s = .next
      (((s.emit (.memRead (s.reg s.x) (s.byteAt (s.reg s.x)))).emit (.outPort p (s.byteAt (s.reg s.x)))).incReg s.x) :=
  rfl

theorem exec_inp (p : Port) (s : State) :
    exec (.inp p) s = .next
      (((s.inPort p).setD (s.env.portValue p)).writeCell (s.reg s.x) (s.env.portValue p)) := rfl

/-! ### What each shape changes and keeps -/

/-- Setting `Q`: one notification, and `Q` only. -/
theorem latchQ_effect {s t : State} {b : Bool} (ht : t = s.latchQ b) :
    t.q = b ∧ t.events = .notifyQ b :: s.events ∧ RegsKeptBut [] s t ∧ MemKept s t ∧ KeptBut [.q] s t := by
  subst ht
  exact ⟨rfl, rfl, by simp, by simp, by simp⟩

/-- A pop: one read with post-increment through the old `X`, the byte's nibbles in `X` and `P`, and `IE`. -/
theorem popXP_setIE_effect {s t : State} {b : Bool} (ht : t = s.popXP.setIE b) :
    t.x.toNat = (s.byteAt (s.reg s.x)).toNat / 16 ∧ t.p.toNat = (s.byteAt (s.reg s.x)).toNat % 16 ∧ t.ie = b ∧
      (t.reg s.x).toNat = ((s.reg s.x).toNat + 1) % 65536 ∧
      t.events = .memRead (s.reg s.x) (s.byteAt (s.reg s.x)) :: s.events ∧
      RegsKeptBut [s.x] s t ∧ MemKept s t ∧ KeptBut [.x, .p, .ie] s t := by
  subst ht
  refine ⟨toNat_packHi _, toNat_packLo _, rfl, ?_, rfl, ?_, ?_, ?_⟩
  · rw [← toNat_add_one]
    simp [State.popXP]
  all_goals simp [State.popXP]

/-- A port write: the read, the write, and the one register stepped on. -/
theorem emit_emit_incReg_effect {s t : State} {e e' : Event} {n : Reg} (ht : t = ((s.emit e).emit e').incReg n) :
    t.events = e' :: e :: s.events ∧ (t.reg n).toNat = ((s.reg n).toNat + 1) % 65536 ∧
      RegsKeptBut [n] s t ∧ MemKept s t ∧ KeptBut [] s t := by
  subst ht
  refine ⟨rfl, ?_, by simp, by simp, by simp⟩
  rw [← toNat_add_one]
  simp

/-- A port read into `D` and into one cell. -/
theorem inPort_setD_writeCell_effect {s t : State} {p : Port} {a : Word} {v : Byte}
    (ht : t = ((s.inPort p).setD v).writeCell a v) :
    t.d = v ∧ t.byteAt a = v ∧ MemKeptBut a s t ∧
      t.events = .memWrite a v :: .inPort p (s.env.portValue p) :: s.events ∧ t.env = s.env.afterPort ∧
      RegsKeptBut [] s t ∧ KeptBut [.d, .env] s t := by
  subst ht
  exact ⟨rfl, by simp, by simp, rfl, rfl, by simp, by simp⟩

/-! ### The obligations -/

/-- Settles O31: the observer is notified whatever `Q` was. -/
theorem qIsSetAndNotified : Obligations.QIsSetAndNotified := fun s =>
  ⟨⟨row_of_head rfl (by decide), _, exec_req s, latchQ_effect rfl⟩,
    row_of_head rfl (by decide), _, exec_seq s, latchQ_effect rfl⟩

/-- Settles O33: both are one pop, and differ in what they make of `IE`. -/
theorem retAndDisPopXAndP : Obligations.RetAndDisPopXAndP := by
  rintro s i op enable (⟨rfl, rfl, rfl⟩ | ⟨rfl, rfl, rfl⟩)
  · exact ⟨row_of_head rfl (by decide), _, exec_ret s, popXP_setIE_effect rfl⟩
  · exact ⟨row_of_head rfl (by decide), _, exec_dis s, popXP_setIE_effect rfl⟩

/-- Settles O35. -/
theorem outWritesPort : Obligations.OutWritesPort := fun p s =>
  ⟨fun _ => row_of_head rfl (by simp), _, exec_out p s, emit_emit_incReg_effect rfl⟩

/-- Settles O36: the byte is the environment's value for the port. -/
theorem inpStoresPortByte : Obligations.InpStoresPortByte := fun p s =>
  ⟨fun _ => row_of_head rfl (by simp), _, s.env.portValue p, exec_inp p s,
    fun _ _ h => Env.portValue_of_cons h p, inPort_setD_writeCell_effect rfl⟩

/-- Settles O34: the rules of the four instructions put together. The increment takes `R[2]` back to the cell that MARK
stored in, so RET pops the packed `X` and `P` that are in `T`. -/
theorem retUndoesMark : Obligations.RetUndoesMark := by
  intro s
  obtain ⟨-, t1, h1, hpacked, -, hcell, hmem1, hr1, -, hregs1, -⟩ := markSavesXAndP s
  obtain ⟨⟨-, t2, h2, hr2, -, hregs2, hmem2, -⟩, -⟩ := incrementAndDecrement 2 t1
  obtain ⟨-, -, t3, h3, hx3, -, -, hregs3, hmem3, -⟩ := selectRegisters 2 t2
  obtain ⟨-, t4, h4, hx4, hp4, hie4, hr4, -, hregs4, hmem4, -⟩ :=
    retAndDisPopXAndP t3 .ret 0x70#8 true (.inl ⟨rfl, rfl, rfl⟩)
  rw [hx3] at hx4 hp4 hr4 hregs4
  have hback : t3.reg 2 = s.reg 2 := by
    have := (s.reg 2).isLt
    apply BitVec.eq_of_toNat_eq
    rw [hregs3 2 (by simp), hr2, hr1]
    omega
  have hpopped : (t3.byteAt (t3.reg 2)).toNat = s.x.toNat * 16 + s.p.toNat := by
    rw [hback, hmem3, hmem2, hcell, hpacked]
  have hp := s.p.isLt
  refine ⟨t1, t2, t3, t4, h1, h2, h3, h4, ?_, ?_, hie4, ?_, fun k hk => ?_, fun a ha => ?_⟩
  · apply BitVec.eq_of_toNat_eq
    rw [hx4, hpopped]
    omega
  · apply BitVec.eq_of_toNat_eq
    rw [hp4, hpopped]
    omega
  · apply BitVec.eq_of_toNat_eq
    rw [hr4, hback, toNat_add_one]
  · rw [hregs4 k hk, hregs3 k (by simp), hregs2 k hk, hregs1 k hk]
  · rw [hmem4, hmem3, hmem2, hmem1 a ha]

end Sys2Proof.Machine
end

section
/-! PROOFS. Instruction-fetch coherence (20_memory.md section 6): an instruction that stores into the byte after its own
opcode has `R[P]` on the byte it stored, unless its decrement takes `R[P]` back to the opcode. -/

namespace Sys2Proof.Machine

open Sys2Proof

section
variable {i : Instr} {s u : State} {b : Byte}

/-- A store at the program counter, which has moved to the byte after the opcode: the next opcode is the byte stored. -/
theorem EngineReady.step_store {a : Word} (h : EngineReady s) (hi : i.wellFormed = true)
    (hop : encode i = [s.opcode]) (hv : exec i s.fetchOpcode = .next (u.writeCell a b)) (hpc : u.pc = s.pc + 1)
    (ha : a = s.pc + 1) : ∃ t, step s = .next t ∧ t.pc = s.pc + 1 ∧ t.opcode = b ∧ t.d = u.d := by
  subst ha
  have htpc : ((u.writeCell (s.pc + 1) b).account s.opcode).pc = s.pc + 1 := (State.account_pc _ _).trans hpc
  refine ⟨_, h.step_eq (State.decodeAtPc_of_opcode hi hop) hv, htpc, ?_, by simp⟩
  rw [State.opcode, htpc]
  simp

/-- The same with post-decrement: if the register is the program counter itself, that is back at the opcode. -/
theorem EngineReady.step_store_retreat {n : Reg} (h : EngineReady s) (hi : i.wellFormed = true)
    (hop : encode i = [s.opcode]) (hv : exec i s.fetchOpcode = .next ((u.writeCell (u.reg n) b).decReg n))
    (hpc : u.pc = s.pc + 1) (hp : u.p = s.p) (hmem : MemKept s u) (hn : u.reg n = s.pc + 1) :
    ∃ t, step s = .next t ∧ t.byteAt (s.pc + 1) = b ∧ (s.p ≠ n → t.pc = s.pc + 1 ∧ t.opcode = b) ∧
      (s.p = n → t.pc = s.pc ∧ t.opcode = s.opcode) := by
  have hstep := h.step_eq (State.decodeAtPc_of_opcode hi hop) hv
  generalize ht : ((u.writeCell (u.reg n) b).decReg n).account s.opcode = t at hstep
  have htmem : ∀ a, t.byteAt a = if a = s.pc + 1 then b else s.byteAt a := fun a => by simp [← ht, hn, hmem a]
  have htpc : t.pc = if s.p = n then s.pc else s.pc + 1 := by
    rw [← ht, State.account_pc, State.pc_eq]
    simp only [State.decReg_eq, State.writeCell_eq, State.reg_setReg, State.reg_emit, State.reg_poke,
      State.setReg_p, State.emit_p, State.poke_p, hn, hp, BitVec.add_sub_cancel]
    rw [← hp, ← State.pc_eq, hpc]
  refine ⟨t, hstep, by rw [htmem, if_pos rfl], fun hne => ?_, fun heq => ?_⟩
  · rw [if_neg hne] at htpc
    exact ⟨htpc, by rw [State.opcode, htpc, htmem, if_pos rfl]⟩
  · rw [if_pos heq] at htpc
    exact ⟨htpc, by rw [State.opcode, htpc, htmem, if_neg (by simp)]; rfl⟩

end

/-- Settles O9: after the fetch `R[P]` is the address of every one of the stores. -/
theorem storeIsSeenByNextFetch : Obligations.StoreIsSeenByNextFetch := by
  intro s hready
  have hpc := s.pc_fetchOpcode
  refine ⟨fun n hop hn => ?_, fun hop hx => ?_, fun hop hx => ?_, fun hop h2 => ?_, fun p hp hop hx => ?_⟩
  · obtain ⟨t, hstep, htpc, hopcode, -⟩ :=
      hready.step_store rfl (by rw [hop]; rfl) (exec_str n _) hpc hn
    exact ⟨t, hstep, htpc, hopcode⟩
  · obtain ⟨t, hstep, hcell, hne, heq⟩ :=
      hready.step_store_retreat rfl (by rw [hop]; rfl) (exec_stxd _) hpc rfl (fun _ => rfl) hx
    exact ⟨t, hstep, hcell, fun h => hne h.symm, fun h => hop ▸ heq h.symm⟩
  · obtain ⟨t, hstep, htpc, hopcode, -⟩ :=
      hready.step_store rfl (by rw [hop]; rfl) (exec_sav _) hpc hx
    exact ⟨t, hstep, htpc, hopcode⟩
  · obtain ⟨t, hstep, hcell, hne, heq⟩ :=
      hready.step_store_retreat rfl (by rw [hop]; rfl) (exec_mark _) hpc rfl (fun _ => rfl) h2
    exact ⟨t, hstep, hcell, hne, fun h => hop ▸ heq h⟩
  · obtain ⟨t, hstep, htpc, hopcode, hd⟩ :=
      hready.step_store (by simpa [Instr.wellFormed] using hp) (by rw [hop]; rfl) (exec_inp p _) hpc hx
    exact ⟨t, hstep, htpc, hopcode.trans hd.symm, fun b bs h => hd.trans (Env.portValue_of_cons h p)⟩

end Sys2Proof.Machine
end

section
/-! PROOFS. Arithmetic with an operand byte (44_arithmetic.md): one observed fetch through `R[P]` and one result of
`addC` or `subB`; and the carry chain over the bytes of a word. -/

namespace Sys2Proof.Machine

open Sys2Proof

/-! ### What each instruction answers -/

section
variable (v : Byte) (s : State)

theorem exec_adi :
    exec (.adi v) s = .next (((s.emit (.memRead (s.reg s.p) v)).incReg s.p).setResult (addC s.d v false)) := rfl

theorem exec_adci :
    exec (.adci v) s = .next (((s.emit (.memRead (s.reg s.p) v)).incReg s.p).setResult (addC s.d v s.df)) := rfl

theorem exec_sdi :
    exec (.sdi v) s = .next (((s.emit (.memRead (s.reg s.p) v)).incReg s.p).setResult (subB v s.d false)) := rfl

theorem exec_sdbi :
    exec (.sdbi v) s = .next (((s.emit (.memRead (s.reg s.p) v)).incReg s.p).setResult (subB v s.d (!s.df))) := rfl

theorem exec_smi :
    exec (.smi v) s = .next (((s.emit (.memRead (s.reg s.p) v)).incReg s.p).setResult (subB s.d v false)) := rfl

theorem exec_smbi :
    exec (.smbi v) s = .next (((s.emit (.memRead (s.reg s.p) v)).incReg s.p).setResult (subB s.d v (!s.df))) := rfl

end

/-! ### The exact value of a result -/

/-- `D' - 256 * (1 - DF')`: what `D` and `DF` say of the exact sum less 256, or of the exact difference (R171). -/
def DDF.value (v : DDF) : Int := (v.d.toNat : Int) - 256 * (1 - (v.df.toNat : Int))

theorem addC_value (a b : Byte) (c : Bool) : (addC a b c).value = (a.toNat : Int) + b.toNat + c.toNat - 256 := by
  have := addC_exact a b c
  rw [DDF.value]
  omega

/-- The borrow-in given by its number `n`. -/
theorem subB_value (m s : Byte) {b : Bool} {n : Int} (hb : (b.toNat : Int) = n) :
    (subB m s b).value = (m.toNat : Int) - s.toNat - n := by
  rw [DDF.value, subB_exact, hb]

/-- A result after an operand fetch: one event, `R[P]`, and `D` and `DF`. -/
theorem emit_incReg_setResult_effect {i : Instr} {s : State} {e : Event} {v : DDF} {n : Int}
    (hi : exec i s = .next (((s.emit e).incReg s.p).setResult v)) (hv : v.value = n) :
    ∃ t, exec i s = .next t ∧ (t.d.toNat : Int) - 256 * (1 - (t.df.toNat : Int)) = n ∧
      t.reg s.p = s.reg s.p + 1 ∧ t.events = e :: s.events ∧
      RegsKeptBut [s.p] s t ∧ MemKept s t ∧ KeptBut [.d, .df] s t :=
  ⟨_, hi, hv, by simp, rfl, by simp, by simp, by simp⟩

/-! ### The obligations -/

/-- Settles O24: the six differ in the function, in the order of its operands and in the carry or borrow in. -/
theorem immediateArithmetic : Obligations.ImmediateArithmetic := by
  intro v s i op result h
  simp only [List.mem_cons, Prod.mk.injEq, List.not_mem_nil, or_false] at h
  obtain ⟨rfl, rfl, rfl⟩ | ⟨rfl, rfl, rfl⟩ | ⟨rfl, rfl, rfl⟩ | ⟨rfl, rfl, rfl⟩ | ⟨rfl, rfl, rfl⟩ | ⟨rfl, rfl, rfl⟩ := h
  · exact ⟨row_of_head rfl (by decide),
      emit_incReg_setResult_effect (exec_adi v s) ((addC_value _ _ _).trans (by simp))⟩
  · exact ⟨row_of_head rfl (by decide), emit_incReg_setResult_effect (exec_adci v s) (addC_value _ _ _)⟩
  · exact ⟨row_of_head rfl (by decide),
      emit_incReg_setResult_effect (exec_sdi v s) ((subB_value _ _ rfl).trans (by simp))⟩
  · exact ⟨row_of_head rfl (by decide),
      emit_incReg_setResult_effect (exec_sdbi v s) (subB_value _ _ (toNat_not_eq_one_sub _))⟩
  · exact ⟨row_of_head rfl (by decide),
      emit_incReg_setResult_effect (exec_smi v s) ((subB_value _ _ rfl).trans (by simp))⟩
  · exact ⟨row_of_head rfl (by decide),
      emit_incReg_setResult_effect (exec_smbi v s) (subB_value _ _ (toNat_not_eq_one_sub _))⟩

/-- The sum of the low bytes and its carry, then the sum of the high bytes with it, are the sum of the words (R171). -/
theorem addC_words (a b : Word) :
    let low := addC (lo a) (lo b) false
    let high := addC (hi a) (hi b) low.df
    join high.d low.d = a + b ∧ high.df = decide (65536 ≤ a.toNat + b.toNat) := by
  intro low high
  have hlow : low.d.toNat + 256 * low.df.toNat = a.toNat % 256 + b.toNat % 256 := by
    simpa [toNat_lo] using addC_exact (lo a) (lo b) false
  have hhigh : high.d.toNat + 256 * high.df.toNat = a.toNat / 256 + b.toNat / 256 + low.df.toNat := by
    simpa [toNat_hi] using addC_exact (hi a) (hi b) low.df
  have hl := low.d.isLt
  have hh := high.d.isLt
  have ha := a.isLt
  have hb := b.isLt
  constructor
  · apply BitVec.eq_of_toNat_eq
    rw [toNat_join, BitVec.toNat_add]
    omega
  · cases hdf : high.df <;> rw [hdf] at hhigh
    · simp only [Bool.toNat_false] at hhigh
      exact (decide_eq_false (by omega)).symm
    · simp only [Bool.toNat_true] at hhigh
      exact (decide_eq_true (by omega)).symm

/-- Settles O25: LDI leaves `DF` alone, so the carry of the low bytes reaches the high ones. -/
theorem carryChainAddsWords : Obligations.CarryChainAddsWords := fun a b s =>
  ⟨_, _, _, _, exec_ldi (lo a) s, exec_adi (lo b) _, exec_ldi (hi a) _, exec_adci (hi b) _, addC_words a b⟩

end Sys2Proof.Machine
end

section
/-! PROOFS. Short branches (45_short_branch.md), long branches and long skips (46_long_branch_skip.md): what a transfer
of control changes, taken and not taken. -/

namespace Sys2Proof.Machine

open Sys2Proof

/-! ### Frames -/

section
variable {s u : State} {l : List Part}

@[simp] theorem regsKeptBut_sampleEf (k : List Reg) (e : ExtFlag) :
    RegsKeptBut k s (u.sampleEf e) ↔ RegsKeptBut k s u := Iff.rfl

@[simp] theorem memKept_sampleEf (e : ExtFlag) : MemKept s (u.sampleEf e) ↔ MemKept s u := Iff.rfl

@[simp] theorem keptBut_sampleEf (h : Part.env ∈ l) (e : ExtFlag) :
    KeptBut l s (u.sampleEf e) ↔ KeptBut l s u :=
  forall₂_congr fun f hf => by
    cases f
    case env => exact absurd h hf
    all_goals rfl

end

theorem Env.efValue_of_cons {e : Env} {l : EfLevels} {ls : List EfLevels} (h : e.efIn = l :: ls) (k : ExtFlag) :
    e.efValue k = l.level k := by
  rw [Env.efValue, h]

/-! ### Targets and conditions in arithmetic -/

/-- The page of the operand byte, and the operand in it (R192). -/
theorem toNat_shortTarget (a : Word) (a8 : Byte) : (shortTarget a a8).toNat = a.toNat / 256 * 256 + a8.toNat := by
  rw [shortTarget, toNat_join, toNat_hi]

theorem toNat_add_two (v : Word) : (v + 2).toNat = (v.toNat + 2) % 65536 := BitVec.toNat_add v 2

theorem beq_zero_eq_decide (d : Byte) : (d == 0) = decide (d.toNat = 0) := by
  rw [Bool.eq_iff_iff, beq_iff_eq, decide_eq_true_eq, ← BitVec.toNat_inj]
  rfl

theorem bne_zero_eq_decide (d : Byte) : (d != 0) = decide (d.toNat ≠ 0) := by
  rw [bne, beq_zero_eq_decide, decide_not]

/-! ### What a transfer changes and keeps -/

/-- A short branch: taken, one event and `R[P]` in the operand's page; not taken, `R[P]` one further on. -/
theorem shortBranch_frame {s t : State} {c : Bool} {a8 : Byte} (ht : t = s.shortBranch c a8) :
    (t.reg s.p).toNat =
        (if c then (s.reg s.p).toNat / 256 * 256 + a8.toNat else ((s.reg s.p).toNat + 1) % 65536) ∧
      t.events = (if c then .memRead (s.reg s.p) a8 :: s.events else s.events) ∧
      RegsKeptBut [s.p] s t ∧ MemKept s t ∧ KeptBut [] s t := by
  subst ht
  refine ⟨?_, ?_⟩
  · rw [State.shortBranch_reg, if_pos rfl, ← toNat_shortTarget, ← toNat_add_one, State.pc_eq]
    split <;> rfl
  · cases c <;> exact ⟨rfl, by simp [State.shortBranch], by simp [State.shortBranch], by simp [State.shortBranch]⟩

/-- A long branch: both operand bytes are read, taken or not (R211). -/
theorem longBranch_frame {s t : State} {c : Bool} {ahi alo : Byte} (ht : t = s.longBranch c ahi alo) :
    (t.reg s.p).toNat = (if c then ahi.toNat * 256 + alo.toNat else ((s.reg s.p).toNat + 2) % 65536) ∧
      t.events = .memRead (s.reg s.p + 1) alo :: .memRead (s.reg s.p) ahi :: s.events ∧
      RegsKeptBut [s.p] s t ∧ MemKept s t ∧ KeptBut [] s t := by
  subst ht
  refine ⟨?_, ?_⟩
  · rw [State.longBranch_reg, if_pos rfl, ← toNat_join, ← toNat_add_two, State.pc_eq]
    split <;> rfl
  · cases c <;>
      exact ⟨by simp [State.longBranch, State.pc_eq], by simp [State.longBranch], by simp [State.longBranch],
        by simp [State.longBranch]⟩

/-- A long skip: nothing is read. -/
theorem longSkip_frame {s t : State} {c : Bool} (ht : t = s.longSkip c) :
    (t.reg s.p).toNat = (if c then ((s.reg s.p).toNat + 2) % 65536 else (s.reg s.p).toNat) ∧
      t.events = s.events ∧ RegsKeptBut [s.p] s t ∧ MemKept s t ∧ KeptBut [] s t := by
  subst ht
  refine ⟨?_, ?_⟩
  · rw [State.longSkip_reg, ← toNat_add_two, State.pc_eq]
    cases c <;> simp
  · cases c <;> exact ⟨rfl, by simp [State.longSkip], by simp [State.longSkip], by simp [State.longSkip]⟩

/-! ### The obligations -/

section
variable {i : Instr} {op a8 ahi alo : Byte} {s : State} {c : Bool}

theorem shortBranch_rule (he : encode i = [op, a8]) (hop : opHi op = 3#4)
    (hi : exec i s = .next (s.shortBranch c a8)) :
    Row i [op, a8] 16 ∧ ∃ t, exec i s = .next t ∧
      (t.reg s.p).toNat =
        (if c then (s.reg s.p).toNat / 256 * 256 + a8.toNat else ((s.reg s.p).toNat + 1) % 65536) ∧
      t.events = (if c then .memRead (s.reg s.p) a8 :: s.events else s.events) ∧
      RegsKeptBut [s.p] s t ∧ MemKept s t ∧ KeptBut [] s t :=
  ⟨row_of_head he (by rw [hop]; decide), _, hi, shortBranch_frame rfl⟩

/-- A branch on a flag is one sample, and then a branch on whether it is the level waited for. -/
theorem sampledBranch_rule {k : ExtFlag} {level : Bool} (he : encode i = [op, a8]) (hop : opHi op = 3#4)
    (hi : exec i s = .next ((s.sampleEf k).shortBranch (s.env.efValue k == level) a8)) :
    Row i [op, a8] 16 ∧ ∃ t v, exec i s = .next t ∧ (∀ l ls, s.env.efIn = l :: ls → v = l.level k) ∧
      (t.reg s.p).toNat =
        (if v = level then (s.reg s.p).toNat / 256 * 256 + a8.toNat else ((s.reg s.p).toNat + 1) % 65536) ∧
      t.events =
        (if v = level then .memRead (s.reg s.p) a8 :: .efSample k v :: s.events else .efSample k v :: s.events) ∧
      t.env = { s.env with efIn := s.env.efIn.drop 1, draws := s.env.draws + 1 } ∧
      RegsKeptBut [s.p] s t ∧ MemKept s t ∧ KeptBut [.env] s t := by
  obtain ⟨hpc, hevents, hregs, hmem, hparts⟩ :=
    shortBranch_frame (s := s.sampleEf k) (c := s.env.efValue k == level) (a8 := a8) rfl
  simp only [beq_iff_eq] at hpc hevents
  have hsampled : KeptBut [.env] s (s.sampleEf k) := by simp
  exact ⟨row_of_head he (by rw [hop]; decide), _, s.env.efValue k, hi, fun _ _ h => Env.efValue_of_cons h k,
    hpc, hevents, hparts .env List.not_mem_nil, hregs, hmem, hsampled.trans (hparts.weaken (List.nil_subset _))⟩

theorem longBranch_rule (he : encode i = [op, ahi, alo]) (hop : opHi op = 0xC#4)
    (hi : exec i s = .next (s.longBranch c ahi alo)) :
    Row i [op, ahi, alo] 24 ∧ ∃ t, exec i s = .next t ∧
      (t.reg s.p).toNat = (if c then ahi.toNat * 256 + alo.toNat else ((s.reg s.p).toNat + 2) % 65536) ∧
      t.events = .memRead (s.reg s.p + 1) alo :: .memRead (s.reg s.p) ahi :: s.events ∧
      RegsKeptBut [s.p] s t ∧ MemKept s t ∧ KeptBut [] s t :=
  ⟨row_of_long_head he hop, _, hi, longBranch_frame rfl⟩

theorem longSkip_rule (he : encode i = [op]) (hop : opHi op = 0xC#4) (hi : exec i s = .next (s.longSkip c)) :
    Row i [op] 24 ∧ ∃ t, exec i s = .next t ∧
      (t.reg s.p).toNat = (if c then ((s.reg s.p).toNat + 2) % 65536 else (s.reg s.p).toNat) ∧
      t.events = s.events ∧ RegsKeptBut [s.p] s t ∧ MemKept s t ∧ KeptBut [] s t :=
  ⟨row_of_long_head he hop, _, hi, longSkip_frame rfl⟩

end

/-- Settles O26: the eight are one transfer, each on its own condition. -/
theorem shortBranchesOnState : Obligations.ShortBranchesOnState := by
  intro a8 s i op c h
  simp only [← beq_zero_eq_decide, ← bne_zero_eq_decide] at h
  obtain ⟨rfl, rfl, rfl⟩ | ⟨rfl, rfl, rfl⟩ | ⟨rfl, rfl, rfl⟩ | ⟨rfl, rfl, rfl⟩ | ⟨rfl, rfl, rfl⟩ |
    ⟨rfl, rfl, rfl⟩ | ⟨rfl, rfl, rfl⟩ | ⟨rfl, rfl, rfl⟩ := h <;>
    exact shortBranch_rule rfl rfl rfl

/-- Settles O27: B1 to B4 wait for a set flag, BN1 to BN4 for a clear one. -/
theorem shortBranchesOnFlags : Obligations.ShortBranchesOnFlags := by
  intro a8 s i op k level h
  simp only [List.mem_cons, Prod.mk.injEq, List.not_mem_nil, or_false] at h
  obtain ⟨rfl, rfl, rfl, rfl⟩ | ⟨rfl, rfl, rfl, rfl⟩ | ⟨rfl, rfl, rfl, rfl⟩ | ⟨rfl, rfl, rfl, rfl⟩ |
    ⟨rfl, rfl, rfl, rfl⟩ | ⟨rfl, rfl, rfl, rfl⟩ | ⟨rfl, rfl, rfl, rfl⟩ | ⟨rfl, rfl, rfl, rfl⟩ := h
  iterate 4 exact sampledBranch_rule rfl rfl (by rw [beq_true]; rfl)
  iterate 4 exact sampledBranch_rule rfl rfl (by rw [beq_false]; rfl)

/-- Settles O28: the seven are one transfer, each on its own condition. -/
theorem longBranchesSetPc : Obligations.LongBranchesSetPc := by
  intro ahi alo s i op c h
  simp only [← beq_zero_eq_decide, ← bne_zero_eq_decide] at h
  obtain ⟨rfl, rfl, rfl⟩ | ⟨rfl, rfl, rfl⟩ | ⟨rfl, rfl, rfl⟩ | ⟨rfl, rfl, rfl⟩ | ⟨rfl, rfl, rfl⟩ |
    ⟨rfl, rfl, rfl⟩ | ⟨rfl, rfl, rfl⟩ := h <;>
    exact longBranch_rule rfl rfl rfl

/-- Settles O29: the eight are one transfer, each on its own condition. -/
theorem longSkipsPassTwoBytes : Obligations.LongSkipsPassTwoBytes := by
  intro s i op c h
  simp only [← beq_zero_eq_decide, ← bne_zero_eq_decide] at h
  obtain ⟨rfl, rfl, rfl⟩ | ⟨rfl, rfl, rfl⟩ | ⟨rfl, rfl, rfl⟩ | ⟨rfl, rfl, rfl⟩ | ⟨rfl, rfl, rfl⟩ |
    ⟨rfl, rfl, rfl⟩ | ⟨rfl, rfl, rfl⟩ | ⟨rfl, rfl, rfl⟩ := h <;>
    exact longSkip_rule rfl rfl rfl

end Sys2Proof.Machine
end

section
/-! PROOFS. What one instruction may write (10_state.md sections 4 and 5, 20_memory.md section 2): the parts of the
state and the one cell, said once for all instructions. -/

namespace Sys2Proof.Machine

open Sys2Proof

/-! ### The parts -/

/-- The parts that an instruction may write, besides the general registers, memory and the event history. -/
def writtenParts : Instr → List Part
  | .idl | .illegal => [.status]
  | .b1 _ | .b2 _ | .b3 _ | .b4 _ | .bn1 _ | .bn2 _ | .bn3 _ | .bn4 _ => [.env]
  | .ldn _ | .lda _ | .ldx | .ldxa | .ldi _ | .glo _ | .ghi _ | .or | .and | .xor | .ori _ | .ani _ | .xri _ => [.d]
  | .add | .adc | .sd | .sdb | .sm | .smb | .adi _ | .adci _ | .sdi _ | .sdbi _ | .smi _ | .smbi _
  | .shr | .shrc | .shl | .shlc => [.d, .df]
  | .mark => [.t, .x]
  | .req | .seq => [.q]
  | .ret | .dis => [.x, .p, .ie]
  | .sep _ => [.p]
  | .sex _ => [.x]
  | .inp _ => [.d, .env]
  | .inc _ | .dec _ | .br _ | .bq _ | .bz _ | .bdf _ | .skp _ | .bnq _ | .bnz _ | .bnf _ | .str _ | .irx | .out _
  | .stxd | .sav | .plo _ | .phi _ | .lbr _ _ | .lbq _ _ | .lbz _ _ | .lbdf _ _ | .nop | .lsnq | .lsnz | .lsnf | .lskp
  | .lbnq _ _ | .lbnz _ _ | .lbnf _ _ | .lsie | .lsq | .lsz | .lsdf => []

@[simp] theorem keptBut_shortBranch {l : List Part} {s u : State} (c : Bool) (a8 : Byte) :
    KeptBut l s (u.shortBranch c a8) ↔ KeptBut l s u := by
  cases c <;> simp [State.shortBranch]

@[simp] theorem keptBut_longBranch {l : List Part} {s u : State} (c : Bool) (ahi alo : Byte) :
    KeptBut l s (u.longBranch c ahi alo) ↔ KeptBut l s u := by
  cases c <;> simp [State.longBranch]

@[simp] theorem keptBut_longSkip {l : List Part} {s u : State} (c : Bool) :
    KeptBut l s (u.longSkip c) ↔ KeptBut l s u := by
  cases c <;> simp [State.longSkip]

/-- No instruction changes a part that is not its own to write. -/
theorem exec_keptBut {i : Instr} {s u : State} (h : exec i s = .next u) : KeptBut (writtenParts i) s u := by
  cases i
  case idl => cases h; simp [writtenParts, State.raiseHalt]
  case illegal => cases h; simp [writtenParts, State.raiseIllegal]
  case ret | dis => cases h; simp [writtenParts, State.popXP]
  all_goals cases h; simp [writtenParts]

theorem exec_mem_writtenParts {i : Instr} {s u : State} {f : Part} (h : exec i s = .next u) (hf : ¬ f.same s u) :
    f ∈ writtenParts i :=
  not_not.mp fun hf' => hf (exec_keptBut h f hf')

section
variable {i : Instr}

theorem eq_of_t_mem_writtenParts (h : .t ∈ writtenParts i) : i = .mark := by
  cases i <;> simp [writtenParts] at h ⊢

theorem eq_of_ie_mem_writtenParts (h : .ie ∈ writtenParts i) : i = .ret ∨ i = .dis := by
  cases i <;> simp [writtenParts] at h ⊢

theorem eq_of_q_mem_writtenParts (h : .q ∈ writtenParts i) : i = .req ∨ i = .seq := by
  cases i <;> simp [writtenParts] at h ⊢

theorem eq_of_df_mem_writtenParts (h : .df ∈ writtenParts i) :
    i ∈ [Instr.add, .adc, .sd, .sdb, .sm, .smb, .shr, .shrc, .shl, .shlc] ∨
      ∃ v, i ∈ [Instr.adi v, .adci v, .sdi v, .sdbi v, .smi v, .smbi v] := by
  cases i <;> simp [writtenParts] at h ⊢

theorem eq_of_x_mem_writtenParts (h : .x ∈ writtenParts i) : (∃ n, i = .sex n) ∨ i = .mark ∨ i = .ret ∨ i = .dis := by
  cases i <;> simp [writtenParts] at h ⊢

theorem eq_of_p_mem_writtenParts (h : .p ∈ writtenParts i) : (∃ n, i = .sep n) ∨ i = .ret ∨ i = .dis := by
  cases i <;> simp [writtenParts] at h ⊢

end

/-- Settles O40: a part that changed is one the instruction may write. -/
theorem onlyTheseWriteControlState : Obligations.OnlyTheseWriteControlState := fun _ _ _ h =>
  ⟨fun hne => eq_of_t_mem_writtenParts (exec_mem_writtenParts h hne),
    fun hne => eq_of_ie_mem_writtenParts (exec_mem_writtenParts h hne),
    fun hne => eq_of_q_mem_writtenParts (exec_mem_writtenParts h hne),
    fun hne => eq_of_df_mem_writtenParts (exec_mem_writtenParts h hne),
    fun hne => eq_of_x_mem_writtenParts (exec_mem_writtenParts h hne),
    fun hne => eq_of_p_mem_writtenParts (exec_mem_writtenParts h hne)⟩

/-! ### The one cell -/

/-- The address an instruction stores at, if it stores. -/
def storeAddress (i : Instr) (s : State) : Option Word :=
  match i with
  | .str n => some (s.reg n)
  | .stxd | .sav | .inp _ => some (s.reg s.x)
  | .mark => some (s.reg 2)
  | _ => none

@[simp] theorem memKept_shortBranch {s u : State} (c : Bool) (a8 : Byte) :
    MemKept s (u.shortBranch c a8) ↔ MemKept s u := by
  cases c <;> simp [State.shortBranch]

@[simp] theorem memKept_longBranch {s u : State} (c : Bool) (ahi alo : Byte) :
    MemKept s (u.longBranch c ahi alo) ↔ MemKept s u := by
  cases c <;> simp [State.longBranch]

@[simp] theorem memKept_longSkip {s u : State} (c : Bool) : MemKept s (u.longSkip c) ↔ MemKept s u := by
  cases c <;> simp [State.longSkip]

theorem exec_memKeptBut {i : Instr} {s u : State} {a : Word} (h : exec i s = .next u) (ha : storeAddress i s = some a) :
    MemKeptBut a s u := by
  cases i
  case str | stxd | sav | inp => cases ha; cases h; simp
  case mark => cases ha; cases h; exact (memKeptBut_poke (u := s) _ _).mpr (.refl _ s)
  all_goals cases ha

theorem exec_memKept {i : Instr} {s u : State} (h : exec i s = .next u) (ha : storeAddress i s = none) :
    MemKept s u := by
  cases i
  case str | stxd | sav | inp | mark => cases ha
  case idl => cases h; simp [State.raiseHalt]
  case illegal => cases h; simp [State.raiseIllegal]
  case ret | dis => cases h; simp [State.popXP]
  all_goals cases h; simp

/-- Settles O41: a byte that changed is the one the instruction stores at. -/
theorem onlyStoresWriteMemory : Obligations.OnlyStoresWriteMemory := by
  intro i s t a h hne
  have ha : storeAddress i s = some a := by
    cases hs : storeAddress i s with
    | none => exact absurd (exec_memKept h hs a) hne
    | some a' =>
      by_contra hne'
      exact hne (exec_memKeptBut h hs a fun heq => hne' (congrArg some heq.symm))
  cases i
  case str n => exact .inl ⟨n, rfl, (Option.some.inj ha).symm⟩
  case stxd => exact .inr (.inl ⟨rfl, (Option.some.inj ha).symm⟩)
  case sav => exact .inr (.inr (.inl ⟨rfl, (Option.some.inj ha).symm⟩))
  case mark => exact .inr (.inr (.inr (.inl ⟨rfl, (Option.some.inj ha).symm⟩)))
  case inp p => exact .inr (.inr (.inr (.inr ⟨p, rfl, (Option.some.inj ha).symm⟩)))
  all_goals cases ha

end Sys2Proof.Machine
end

section
/-! PROOFS. The engine and the host (20_memory.md section 6, 60_exceptions.md, 70_reset_and_hazards.md): what a stopped
engine still lets the host change, that the engine and the tone generator are apart, and the host's `Reset` and
`Mute`. -/

namespace Sys2Proof.Machine

open Sys2Proof

/-! ### The tone operations, seen from the machine (R77, R284) -/

/-- An update of the generator, of the number of draws and of the history leaves the engine as it was. -/
theorem toneUpdate_frame {s t : State} {g : Tone} {e : Env} {es : List Event}
    (ht : t = { s with tone := g, env := e, events := es }) :
    RegsKeptBut [] s t ∧ MemKept s t ∧ KeptBut [.tone, .env] s t := by
  subst ht
  refine ⟨fun _ _ => rfl, fun _ => rfl, fun f hf => ?_⟩
  cases f
  case tone | env => exact absurd (by decide) hf
  all_goals rfl

/-- The generator after a tone operation, from the generator and the number of draws before it. -/
def Move.toneAfter (m : Move) (g : Tone) (draws : Nat) : Tone :=
  match m with
  | .mute => g.mute
  | .setRegister sel data => g.setRegister (Config.stagedDraw draws) sel data
  | .produceSample => (g.produceSample ToneParams.default).tone
  | _ => g

theorem toneMove_effect {m : Move} (hm : m = .mute ∨ m = .produceSample ∨ ∃ sel data, m = .setRegister sel data)
    (s : State) : ∃ t, move m s = .next t ∧ t.tone = m.toneAfter s.tone s.env.draws ∧
      (RegsKeptBut [] s t ∧ MemKept s t ∧ KeptBut [.tone, .env] s t) ∧
      t.env.efIn = s.env.efIn ∧ t.env.portIn = s.env.portIn := by
  obtain rfl | rfl | ⟨sel, data, rfl⟩ := hm
  · exact ⟨_, rfl, rfl, toneUpdate_frame rfl, rfl, rfl⟩
  · exact ⟨_, congrArg Host.Outcome.next s.produceSample_eq, rfl, toneUpdate_frame rfl, rfl, rfl⟩
  · exact ⟨_, rfl, rfl, toneUpdate_frame rfl, rfl, rfl⟩

theorem engineTurn_tone {s t : State} (h : engineTurn s = .next t) : t.tone = s.tone := by
  obtain ⟨hstep, -⟩ | ⟨b, -, -, rfl⟩ | ⟨-, rfl⟩ := engineTurn_next h
  · obtain ⟨htone, -⟩ := engineStep_effect hstep
    exact htone
  · rfl
  · rfl

/-- Settles O42: no engine turn writes the generator; a tone operation is a function of the generator and the draw. -/
theorem engineAndToneAreApart : Obligations.EngineAndToneAreApart := by
  refine ⟨fun s t hs h => ?_, fun m ms ms' s s' hm hs hs' htone hdraws => ?_⟩
  · obtain hs | ⟨ms, hs⟩ := hs
    · rw [step_of_idle hs] at h
      exact engineTurn_tone h
    · rw [step_eq_move hs] at h
      exact engineTurn_tone (s := s.setSchedule ms) h
  · obtain ⟨t, ht, htone', ⟨hregs, hmem, hparts⟩, hef, hport⟩ := toneMove_effect hm (s.setSchedule ms)
    obtain ⟨t', ht', htone'', -⟩ := toneMove_effect hm (s'.setSchedule ms')
    refine ⟨t, t', (step_eq_move hs).trans ht, (step_eq_move hs').trans ht', ?_, hregs, hmem, ?_, hef, hport⟩
    · rw [htone', htone'', State.setSchedule_tone, State.setSchedule_tone, State.setSchedule_env,
        State.setSchedule_env, htone, hdraws]
    · have hsched : KeptBut [.tone, .env, .host] s (s.setSchedule ms) := by simp
      exact hsched.trans (hparts.weaken (by simp))

/-! ### A stopped engine (R33, R308, R314) -/

/-- What every move but two leaves alone when the engine is stopped. -/
def EngineKept (s u : State) : Prop := RegsKeptBut [] s u ∧ KeptBut [.clk, .tone, .env, .host] s u

theorem EngineKept.of_toneUpdate {s t : State} {g : Tone} {e : Env} {es : List Event}
    (ht : t = { s with tone := g, env := e, events := es }) : EngineKept s t ∧ MemKept s t := by
  obtain ⟨hregs, hmem, hparts⟩ := toneUpdate_frame ht
  exact ⟨⟨hregs, hparts.weaken (by simp)⟩, hmem⟩

/-- The turn of a stopped engine is at most the return of a `Run` call (R116). -/
theorem engineTurn_stopped {s u : State} (hs : s.status ≠ .running) (h : engineTurn s = .next u) :
    EngineKept s u ∧ MemKept s u := by
  obtain ⟨hstep, -⟩ | ⟨b, -, -, rfl⟩ | ⟨-, rfl⟩ := engineTurn_next h
  · obtain ⟨-, hrun, -⟩ := engineStep_next hstep
    exact absurd hrun hs
  · exact ⟨⟨fun _ _ => rfl, by simp [State.returnFromRun]⟩, fun _ => rfl⟩
  · exact ⟨⟨.refl _ _, .refl _ _⟩, .refl _⟩

theorem MoveEffect.stopped {s u : State} {m : Move} (hs : s.status ≠ .running) (h : MoveEffect s m u) :
    (m = .reset ∧ u.status = .running) ∨
      (EngineKept s u ∧ (MemKept s u ∨ ∃ a v, m = .load a v ∧ MemKeptBut a s u ∧ u.byteAt a = v)) := by
  cases h with
  | engine h =>
    obtain ⟨hkept, hmem⟩ := engineTurn_stopped hs h
    exact .inr ⟨hkept, .inl hmem⟩
  | run b => exact .inr ⟨⟨fun _ _ => rfl, by simp⟩, .inl fun _ => rfl⟩
  | reset h => exact .inl ⟨rfl, rfl⟩
  | load a v => exact .inr ⟨⟨fun _ _ => rfl, by simp⟩, .inr ⟨a, v, rfl, by simp, by simp⟩⟩
  | mute =>
    obtain ⟨hkept, hmem⟩ := EngineKept.of_toneUpdate (s := s) (t := s.mute) rfl
    exact .inr ⟨hkept, .inl hmem⟩
  | setRegister sel data =>
    obtain ⟨hkept, hmem⟩ := EngineKept.of_toneUpdate (s := s) (t := s.setRegister sel data) rfl
    exact .inr ⟨hkept, .inl hmem⟩
  | produceSample =>
    obtain ⟨hkept, hmem⟩ := EngineKept.of_toneUpdate s.produceSample_eq
    exact .inr ⟨hkept, .inl hmem⟩
  | routeTone =>
    have hparts : KeptBut [.clk, .tone, .env, .host] s (s.setSchedule s.routeTone.host.schedule) := by simp
    exact .inr ⟨⟨fun _ _ => rfl, hparts⟩, .inl fun _ => rfl⟩

/-- Settles O39: taking the move off the schedule is itself no change of the engine or of memory. -/
theorem stoppedEngineStaysStopped : Obligations.StoppedEngineStaysStopped := by
  intro s t hs h
  obtain ⟨-, hturn⟩ | ⟨m, ms, hsched, hmove⟩ := step_next h
  · obtain ⟨⟨hregs, hparts⟩, hmem⟩ := engineTurn_stopped hs hturn
    exact .inr ⟨hregs, hparts, .inl hmem⟩
  · have hhead : s.host.schedule.head? = some m := by rw [hsched, List.head?_cons]
    have htaken : KeptBut [.clk, .tone, .env, .host] s (s.setSchedule ms) := by simp
    rw [hhead]
    obtain ⟨rfl, hrun⟩ | ⟨⟨hregs, hparts⟩, hmem⟩ := (move_next hmove).stopped (s := s.setSchedule ms) hs
    · exact .inl ⟨rfl, hrun⟩
    · refine .inr ⟨hregs, htaken.trans hparts, hmem.imp id ?_⟩
      rintro ⟨a, v, rfl, hcells⟩
      exact ⟨a, v, rfl, hcells⟩

/-! ### `Reset` and `Mute` (R253, R330) -/

theorem reg_of_zeroed {s : State} (h : s.r = Vector.replicate 16 0) (k : Reg) : s.reg k = 0 := by
  simp [State.reg, h]

/-- Settles O43. -/
theorem resetStateIsZeroed : Obligations.ResetStateIsZeroed := by
  refine ⟨reg_of_zeroed rfl, rfl, rfl, rfl, rfl, rfl, rfl, rfl, rfl, reg_of_zeroed rfl 0, fun c => ?_, rfl, rfl, rfl⟩
  simp [State.reset, Tone.powerOn, Tone.chan, Channel.zero]

/-- Settles O44: the two phases in which no call is in progress let the move through; the third refuses it. -/
theorem resetZeroesTheEngine : Obligations.ResetZeroesTheEngine := by
  intro s ms hs
  refine ⟨fun hidle => ?_, fun b hb => (step_eq_move hs).trans (betweenRuns_of_running hb _)⟩
  refine ⟨(s.setSchedule ms).resetEngine, (step_eq_move hs).trans (betweenRuns_of_idle hidle _), reg_of_zeroed rfl, ?_⟩
  and_intros <;> rfl

/-- Settles O50. -/
theorem muteZeroesChannels : Obligations.MuteZeroesChannels := fun s ms hs =>
  ⟨(s.setSchedule ms).mute, step_eq_move hs, s.tone.mute_chan, rfl, rfl, rfl, rfl, rfl⟩

end Sys2Proof.Machine
end

section
/-! PROOFS. `Run` (40_engine.md section 3): the loop ends below its bound of passes, so that what every pass keeps holds
where it ends; the overshoot, the run of one instruction, and the machine stepping through the call. -/

namespace Sys2Proof.Machine

open Sys2Proof

/-! ### The loop (R116) -/

theorem runLoop_of_ended {b : Int} {s : State} (h : s.runGoesOn b = false) (k : Nat) :
    runLoop b k s = runDone b s := by
  cases k with
  | zero => rfl
  | succ k => rw [runLoop, h, if_neg Bool.false_ne_true]

theorem runLoop_of_engineStep {b : Int} {s u : State} (h : s.runGoesOn b = true) (hstep : engineStep s = .next u)
    (k : Nat) : runLoop b (k + 1) s = runLoop b k u := by
  rw [runLoop, if_pos h, hstep]

/-- An instruction step that does not stop the engine takes at least 16 clock units (R115). -/
theorem engineStep_progress {s u : State} (h : engineStep s = .next u) (hu : u.status = .running) :
    s.clk + 16 ≤ u.clk := by
  obtain ⟨-, -, v, hv, rfl⟩ := engineStep_next h
  rw [State.account_status] at hu
  rw [State.account_running _ hu, State.setClk_clk, (exec_effect hv).clk, State.fetchOpcode_eq]
  have := cost_cases s.opcode
  simp only [State.setReg_clk, State.emit_clk]
  omega

/-- The loop ends when it no longer goes on, not for want of passes, if these are as many as the budget has left; and
what every pass keeps holds there. -/
theorem runLoop_ends {b : Int} {P : State → Prop}
    (hP : ∀ s u, P s → s.runGoesOn b = true → engineStep s = .next u → P u) (k : Nat) (s : State)
    (hs : P s) (hreset : s.host.resetDone = true) (hk : s.status = .running → b ≤ s.clk + k) :
    ∃ t, runLoop b k s = runDone b t ∧ t.runGoesOn b = false ∧ P t := by
  induction k generalizing s with
  | zero =>
    refine ⟨s, rfl, Bool.eq_false_iff.mpr fun hgo => ?_, hs⟩
    obtain ⟨hrun, hlt⟩ := (s.runGoesOn_iff b).mp hgo
    have := hk hrun
    omega
  | succ k ih =>
    cases hgo : s.runGoesOn b with
    | false => exact ⟨s, runLoop_of_ended hgo _, hgo, hs⟩
    | true =>
      obtain ⟨hrun, -⟩ := (s.runGoesOn_iff b).mp hgo
      obtain ⟨v, -, hstep⟩ := engineStep_running hreset hrun
      obtain ⟨-, hhost, -⟩ := engineStep_effect hstep
      rw [runLoop_of_engineStep hgo hstep]
      refine ih _ (hP s _ hs hgo hstep) (hhost ▸ hreset) fun hrun' => ?_
      have := engineStep_progress hstep hrun'
      have := hk hrun
      omega

/-- `Run` is the loop from `clk = 0`, which needs at most `clockBudget` passes. -/
theorem runCall_ends {b : Int} {P : State → Prop}
    (hP : ∀ s u, P s → s.runGoesOn b = true → engineStep s = .next u → P u) {s : State}
    (hs : P (s.setClk 0)) (hreset : s.host.resetDone = true) :
    ∃ t, runCall b s = runDone b t ∧ t.runGoesOn b = false ∧ P t := by
  rw [runCall, if_pos hreset]
  refine runLoop_ends hP _ _ hs hreset fun _ => ?_
  simp

theorem runDone_of_running {s : State} (h : s.status = .running) (b : Int) :
    runDone b s = .returned ((s.clk : Int) - b) (s.setPhase .returned) := by
  rw [runDone, h]

theorem runDone_of_stopped {s : State} (h : s.status ≠ .running) (b : Int) :
    runDone b s = .stopped s.status (s.setPhase .returned) := by
  rw [runDone]
  cases hs : s.status with
  | running => exact absurd hs h
  | halted => rfl
  | illegalOpcode op a => rfl

/-- Settles O45: a pass begins below `b` and costs at most 24, so no pass ends beyond `b + 23`. -/
theorem runOvershootIsBounded : Obligations.RunOvershootIsBounded := by
  intro b s hb hreset
  have hpass : ∀ s u : State, (s.clk : Int) ≤ b + 23 → s.runGoesOn b = true → engineStep s = .next u →
      (u.clk : Int) ≤ b + 23 := by
    intro s u _ hgo hstep
    obtain ⟨-, hlt⟩ := (s.runGoesOn_iff b).mp hgo
    obtain ⟨-, -, -, hclk, -⟩ := engineStep_effect hstep
    omega
  have hstart : ((s.setClk 0).clk : Int) ≤ b + 23 := by
    simp only [State.setClk_clk]
    omega
  obtain ⟨t, hcall, hended, hclk⟩ := runCall_ends hpass hstart hreset
  rw [hcall]
  by_cases hrun : t.status = .running
  · have hle : b ≤ t.clk := by
      by_contra hlt
      exact absurd ((t.runGoesOn_iff b).mpr ⟨hrun, by omega⟩) (by simp [hended])
    exact .inl ⟨_, _, runDone_of_running hrun b, by omega, by omega, by simp, hrun⟩
  · exact .inr ⟨t.setPhase .returned, hrun, runDone_of_stopped hrun b⟩

/-! ### One instruction (R120) -/

theorem cost_append (h n : Reg) : cost (h ++ n) = if h = 0xC#4 then 24 else 16 := by
  rw [cost_eq, opHi_append]

theorem engineStep_inc {n : Reg} {s : State} (hreset : s.host.resetDone = true) (hrun : s.status = .running)
    (hop : s.opcode = 0x1#4 ++ n) :
    engineStep s = .next ((s.fetchOpcode.setReg n (s.fetchOpcode.reg n + 1)).setClk (s.clk + 16)) := by
  have hdecode : s.decodeAtPc = .inc n := State.decodeAtPc_of_opcode rfl (by rw [hop]; rfl)
  rw [engineStep_eq hreset hrun hdecode (exec_inc n _), State.account_running _ (by simpa using hrun), hop, cost_append,
    if_neg (by decide)]
  rfl

/-- Settles O46: the first pass brings `clk` to 16, which is not below `b`. -/
theorem runOfOneIncrement : Obligations.RunOfOneIncrement := by
  intro n b s hb1 hb16 hreset hrun hop
  obtain ⟨k, hk⟩ : ∃ k, b.toNat = k + 1 := ⟨b.toNat - 1, by omega⟩
  have hstep := engineStep_inc (s := s.setClk 0) hreset hrun hop
  have hgo : (s.setClk 0).runGoesOn b = true := (State.runGoesOn_iff _ b).mpr ⟨hrun, by simp; omega⟩
  generalize ht : (State.setReg _ n _).setClk _ = t at hstep
  have htrun : t.status = .running := by rw [← ht]; exact hrun
  have htclk : t.clk = 16 := by rw [← ht]; rfl
  have hended : t.runGoesOn b = false := by
    rw [Bool.eq_false_iff, ne_eq, State.runGoesOn_iff, htclk]
    omega
  refine ⟨t.setPhase .returned, ?_, htclk, ?_, ?_, ?_, ?_, ?_⟩
  · rw [runCall, if_pos hreset, hk, runLoop_of_engineStep hgo hstep, runLoop_of_ended hended, runDone_of_running htrun,
      htclk]
    rfl
  all_goals subst ht
  · simp [State.fetchOpcode_eq, State.pc_eq]
  · simp [State.fetchOpcode_eq]
  · simp [State.fetchOpcode_eq]
  · simp [State.fetchOpcode_eq]
  · rfl

/-! ### The machine stepping through the call -/

theorem State.account_setPhase (s : State) (op : Byte) (ph : RunPhase) :
    (s.setPhase ph).account op = (s.account op).setPhase ph := by
  by_cases h : s.status = .running
  · rw [State.account_running op h, State.account_running (s := s.setPhase ph) op h]
    rfl
  · rw [State.account_stopped op h, State.account_stopped (s := s.setPhase ph) op h]

/-- Setting the phase before an instruction step is setting it after (R56, R121). -/
theorem engineStep_setPhase {s u : State} (h : engineStep s = .next u) (ph : RunPhase) :
    engineStep (s.setPhase ph) = .next (u.setPhase ph) := by
  obtain ⟨hreset, hrun, v, hv, rfl⟩ := engineStep_next h
  obtain ⟨v', hv', hphase⟩ := exec_setPhase s.decodeAtPc ph s.fetchOpcode
  cases hv.symm.trans hv'
  rw [← State.account_setPhase]
  exact engineStep_eq hreset hrun rfl hphase

theorem run_add {n : Nat} {s u : State} (h : Host.Core.run Sys2Proof.core n s = .next u) (j : Nat) :
    Host.Core.run Sys2Proof.core (n + j) s = Host.Core.run Sys2Proof.core j u := by
  induction n generalizing s with
  | zero => cases h; rw [Nat.zero_add]
  | succ n ih =>
    rw [Nat.succ_add]
    simp only [Host.Core.run] at h ⊢
    split at h
    · exact ih h
    · cases h
    · cases h

theorem run_one {s u : State} (h : step s = .next u) : Host.Core.run Sys2Proof.core 1 s = .next u := by
  simp only [Host.Core.run, show Sys2Proof.core.step s = .next u from h]

/-- A state that its step leaves as it was is left so by every number of steps. -/
theorem run_of_fixed {s : State} (h : step s = .next s) (j : Nat) : Host.Core.run Sys2Proof.core j s = .next s := by
  induction j with
  | zero => rfl
  | succ j ih => rw [Nat.add_comm, run_add (run_one h), ih]

/-- Between two calls and with nothing scheduled the machine is idle (R56). -/
theorem step_of_returned {s : State} (hidle : s.host.schedule = []) (h : s.host.phase = .returned) :
    step s = .next s :=
  (step_of_idle hidle).trans (engineTurn_of_returned h)

/-- The host's `Run(b)` move enters the call. -/
theorem step_run {b : Int} {s : State} (hs : s.host.schedule = []) (hreset : s.host.resetDone = true)
    (hidle : ∀ c, s.host.phase ≠ .running c) :
    step (s.setSchedule [.run b]) = .next ((s.setClk 0).setPhase (.running b)) := by
  have hback : (s.setSchedule [.run b]).setSchedule [] = s := State.setSchedule_eq_self hs
  rw [step_eq_move (s := s.setSchedule [.run b]) rfl, hback]
  exact (betweenRuns_of_idle hidle _).trans (enterRun_of_resetDone hreset b)

/-- With nothing scheduled the machine inside the call makes one pass of the loop, or returns (R116). -/
theorem step_inRun {u : State} (h : u.host.schedule = []) (b : Int) :
    step (u.setPhase (.running b)) =
      if u.runGoesOn b then engineStep (u.setPhase (.running b))
      else .next ((u.setPhase (.running b)).returnFromRun b) :=
  (step_of_idle (s := u.setPhase (.running b)) h).trans (engineTurn_of_running rfl)

/-- The machine inside the call, when the loop has ended, returns and shows what the loop gives. -/
theorem step_of_ended {b : Int} {t : State} (hsched : t.host.schedule = []) (h : t.runGoesOn b = false) :
    ∃ u, step (t.setPhase (.running b)) = .next u ∧ (runDone b t).observed = .next u ∧ u.host.schedule = [] ∧
      u.host.phase = .returned := by
  refine ⟨(t.setPhase (.running b)).returnFromRun b, ?_, ?_, hsched, rfl⟩
  · rw [step_inRun hsched, h, if_neg Bool.false_ne_true]
  · rw [runDone, State.returnFromRun, State.runEnd, State.setPhase_status]
    cases t.status <;> rfl

/-- The machine has reached, inside the call of `Run(b)` entered from `s`, the state the loop is in. -/
def ReachedInRun (b : Int) (s u : State) : Prop :=
  u.host.schedule = [] ∧
    ∃ n, Host.Core.run Sys2Proof.core n ((s.setClk 0).setPhase (.running b)) = .next (u.setPhase (.running b))

theorem ReachedInRun.engineStep {b : Int} {s u v : State} (h : ReachedInRun b s u) (hgo : u.runGoesOn b = true)
    (hstep : engineStep u = .next v) : ReachedInRun b s v := by
  obtain ⟨hsched, n, hn⟩ := h
  obtain ⟨-, hhost, -⟩ := engineStep_effect hstep
  refine ⟨hhost ▸ hsched, n + 1, ?_⟩
  rw [run_add hn]
  apply run_one
  rw [step_inRun hsched, if_pos hgo]
  exact engineStep_setPhase hstep _

/-- Settles O47: every pass of the loop is one step of the machine, and so is the return; there the machine is idle. -/
theorem steppingRefinesRunCall : Obligations.SteppingRefinesRunCall := by
  refine ⟨fun b s hs hreset hidle => ?_, fun s => step_of_returned⟩
  have hstart : ReachedInRun b s (s.setClk 0) := ⟨hs, 0, rfl⟩
  obtain ⟨t, hcall, hended, hsched, n, hn⟩ := runCall_ends (fun _ _ h hgo hstep => h.engineStep hgo hstep) hstart hreset
  obtain ⟨u, hreturn, hobserved, hidle', hreturned⟩ := step_of_ended hsched hended
  refine ⟨1 + n + 1, fun j => ?_⟩
  rw [hcall, hobserved, Nat.add_assoc, Nat.add_assoc]
  calc Host.Core.run Sys2Proof.core (1 + (n + (1 + j))) (s.setSchedule [.run b])
    _ = Host.Core.run Sys2Proof.core (n + (1 + j)) ((s.setClk 0).setPhase (.running b)) :=
        run_add (run_one (step_run hs hreset hidle)) _
    _ = Host.Core.run Sys2Proof.core (1 + j) (t.setPhase (.running b)) := run_add hn _
    _ = Host.Core.run Sys2Proof.core j u := run_add (run_one hreturn) _
    _ = .next u := run_of_fixed (step_of_returned hidle' hreturned) j

end Sys2Proof.Machine
end

section
/-! PROOFS. The waveforms and the noise step (48_tone_generator.md sections 3.1 and 3.2): bits of `count` and of `rng`
as inequalities and remainders, and the range of every value. -/

namespace Sys2Proof.Machine

open Sys2Proof

/-! ### The leading bits of `count` (R267 to R270) -/

section
variable (count : Word)

theorem top_one_eq_decide : count.getLsbD 15 = decide ((0x8000 : Int) ≤ count.toNat) := by
  rw [show count.getLsbD 15 = decide (0x8000 ≤ count.toNat) from BitVec.msb_eq_decide count, decide_eq_decide]
  omega

theorem top_two_eq_decide : (count.extractLsb' 14 2 == 0b11#2) = decide ((0xC000 : Int) ≤ count.toNat) := by
  have := count.isLt
  rw [Bool.eq_iff_iff, beq_iff_eq, decide_eq_true_eq, ← BitVec.toNat_inj, BitVec.extractLsb'_toNat,
    Nat.shiftRight_eq_div_pow, BitVec.toNat_ofNat]
  omega

theorem top_three_eq_decide : (count.extractLsb' 13 3 == 0b111#3) = decide ((0xE000 : Int) ≤ count.toNat) := by
  have := count.isLt
  rw [Bool.eq_iff_iff, beq_iff_eq, decide_eq_true_eq, ← BitVec.toNat_inj, BitVec.extractLsb'_toNat,
    Nat.shiftRight_eq_div_pow, BitVec.toNat_ofNat]
  omega

/-! ### The folded ramp (R271) -/

/-- The bits of `count` shifted up and cut off are twice its remainder. -/
theorem toNat_foldBits : ((count <<< 1) &&& 0x7FFF#16).toNat = 2 * (count.toNat % 0x4000) := by
  rw [BitVec.toNat_and, BitVec.toNat_shiftLeft, Nat.shiftLeft_eq, BitVec.toNat_ofNat,
    show 0x7FFF % 2 ^ 16 = 2 ^ 15 - 1 from rfl, Nat.and_two_pow_sub_one_eq_mod]
  omega

theorem foldCount_eq :
    foldCount count =
      if (0x4000 : Int) ≤ 2 * ((count.toNat : Int) % 0x4000) then 0x7FFF - 2 * ((count.toNat : Int) % 0x4000)
      else 2 * ((count.toNat : Int) % 0x4000) := by
  rw [foldCount, BitVec.getLsbD, Nat.testBit_eq_decide_div_mod_eq, toNat_foldBits]
  simp only [decide_eq_true_eq]
  split <;> split <;> omega

end

/-! ### The noise step (R276) -/

section
variable (P : ToneParams) (rng : BitVec 17)

/-- The feedback enters above the sixteen bits that are left of `rng`, so the two are added. -/
theorem toNat_noiseAdvance :
    (noiseAdvance P rng).toNat =
      rng.toNat / 2 + if rng.getLsbD P.tapA = rng.getLsbD P.tapB then 0 else 0x10000 := by
  have hr : rng.toNat >>> 1 < 2 ^ 16 := by
    have := rng.isLt
    omega
  have hbit (b : Bool) : ((BitVec.ofBool b).setWidth 17 <<< 16).toNat = b.toNat <<< 16 := by cases b <;> rfl
  rw [noiseAdvance, BitVec.toNat_or, BitVec.toNat_ushiftRight, hbit, Nat.or_comm, ← Nat.shiftLeft_add_eq_or_of_lt hr,
    Nat.shiftRight_eq_div_pow, Nat.add_comm]
  cases rng.getLsbD P.tapA <;> cases rng.getLsbD P.tapB <;> rfl

theorem toNat_noiseAdvance_default :
    (noiseAdvance ToneParams.default rng).toNat =
      rng.toNat / 2 + 0x10000 * ((rng.toNat / 2 % 2 + rng.toNat / 4 % 2) % 2) := by
  have hA : rng.getLsbD ToneParams.default.tapA = decide (rng.toNat / 2 % 2 = 1) :=
    Nat.testBit_eq_decide_div_mod_eq
  have hB : rng.getLsbD ToneParams.default.tapB = decide (rng.toNat / 4 % 2 = 1) :=
    Nat.testBit_eq_decide_div_mod_eq
  rw [toNat_noiseAdvance, hA, hB]
  simp only [decide_eq_decide]
  split <;> omega

theorem noiseLevel_eq : noiseLevel rng = if rng.toNat % 2 = 1 then 0x2000 else -0x2000 := by
  rw [noiseLevel, pulseLevel, show rng.getLsbD 0 = decide (rng.toNat % 2 = 1) from Nat.testBit_zero rng.toNat]
  simp only [decide_eq_true_eq]

end

/-! ### The obligations -/

/-- Settles O57. -/
theorem waveformsInArithmetic : Obligations.WaveformsInArithmetic := by
  refine ⟨fun count => ?_, toNat_noiseAdvance, fun rng => ⟨toNat_noiseAdvance_default rng, noiseLevel_eq rng⟩⟩
  refine ⟨?_, ?_, ?_, ?_, ?_, rfl, ?_, rfl⟩
  · exact congrArg pulseLevel (top_one_eq_decide count)
  · exact congrArg pulseLevel (top_two_eq_decide count)
  · exact congrArg pulseLevel (top_three_eq_decide count)
  · exact congrArg pulseLevel (top_two_eq_decide count)
  · rw [show wave ToneParams.default 4 count = wave4Default count from rfl, wave4Default, top_one_eq_decide,
      foldCount_eq]
    simp only [decide_eq_true_eq]
  · rw [show wave ToneParams.default 6 count = wave6Default count from rfl, wave6Default, top_one_eq_decide,
      foldCount_eq]
    simp only [decide_eq_true_eq]

theorem abs_pulseLevel_le (b : Bool) : |pulseLevel b| ≤ 0x4000 := by
  cases b <;> decide

theorem abs_noiseLevel_le (rng : BitVec 17) : |noiseLevel rng| ≤ 0x4000 := abs_pulseLevel_le _

/-- Only the two ramp parameters can exceed the range (R275). -/
theorem abs_wave_le {P : ToneParams} (h4 : ∀ w, |P.wave4 w| ≤ 0x4000) (h6 : ∀ w, |P.wave6 w| ≤ 0x4000)
    (ty : BitVec 3) (count : Word) : |wave P ty count| ≤ 0x4000 := by
  have := count.isLt
  unfold wave
  split
  case h_5 => exact h4 count
  case h_6 => rw [abs_le]; omega
  case h_7 => exact h6 count
  case h_8 => rw [abs_le]; omega
  all_goals exact abs_pulseLevel_le _

theorem abs_foldCount_le (count : Word) : |foldCount count| ≤ 0x4000 := by
  rw [foldCount_eq, abs_le]
  split <;> omega

theorem abs_wave4Default_le (count : Word) : |wave4Default count| ≤ 0x4000 := by
  unfold wave4Default
  split
  · rw [abs_neg]; exact abs_foldCount_le count
  · exact abs_foldCount_le count

theorem abs_wave6Default_le (count : Word) : |wave6Default count| ≤ 0x4000 := by
  unfold wave6Default
  split
  · exact abs_foldCount_le count
  · rw [abs_neg]; exact abs_foldCount_le count

/-- Settles O56: the default ramps are folded at 0x4000. -/
theorem waveformRange : Obligations.WaveformRange :=
  ⟨fun ty count => abs_le.mp (abs_wave_le abs_wave4Default_le abs_wave6Default_le ty count),
    fun rng => abs_le.mp (abs_noiseLevel_le rng)⟩

end Sys2Proof.Machine
end

section
/-! PROOFS. The tone generator's register writes (48_tone_generator.md section 2): what a write makes of its channel and
of the latch, and the staged write of `delta`. -/

namespace Sys2Proof.Machine

open Sys2Proof

/-! ### The selector (R254) -/

@[simp] theorem selectorChan_append (c : Chan) (reg : BitVec 3) : selectorChan (c ++ reg) = c := by
  revert c reg; decide

@[simp] theorem selectorReg_append (c : Chan) (reg : BitVec 3) : selectorReg (c ++ reg) = reg := by
  revert c reg; decide

/-! ### The staged byte and the zero-check (R256, R260) -/

theorem Tone.staged_of_tag {g : Tone} {c : Chan} {k : StageKind} (h : g.stage.tag = some (c, k)) (draw : Byte) :
    g.staged c k draw = g.stage.value := if_pos h

theorem Channel.silent_iff (c : Channel) : c.silent = true ↔ c.volumeLeft = 0 ∧ c.volumeRight = 0 := by
  rw [Channel.silent, Bool.and_eq_true, beq_iff_eq, beq_iff_eq]

theorem Channel.zeroCheck_eq (c : Channel) :
    c.zeroCheck = { c with count := if c.volumeLeft = 0 ∧ c.volumeRight = 0 then 0 else c.count } := by
  unfold Channel.zeroCheck
  simp only [Channel.silent_iff]
  split <;> rfl

/-! ### One register write (R257 to R262) -/

/-- Settles O51: `low` and `left` are the staged bytes; each register number has its own lemma. -/
theorem registerWritesReachTheirChannel : Obligations.RegisterWritesReachTheirChannel := by
  intro s ms c reg data hs
  let draw := Config.stagedDraw s.env.draws
  have htone : ((s.setSchedule ms).setRegister (c ++ reg) data).tone = s.tone.setRegister draw (c ++ reg) data := rfl
  refine ⟨_, s.tone.staged c .deltaLow draw, s.tone.staged c .volLeft draw, step_eq_move hs,
    fun h => Tone.staged_of_tag h draw, fun h => Tone.staged_of_tag h draw, fun k hk => ?_, ?_, ?_,
    s.tone.setRegister_rest draw (c ++ reg) data⟩
  · exact s.tone.setRegister_chan_other draw (c ++ reg) data k (by simpa using hk)
  all_goals
    rw [htone]
    obtain ⟨reg⟩ := reg
    match reg with
    | 0 => rw [Tone.setRegister_stage _ _ _ _ c .deltaLow (by simp) (by simp)]; rfl
    | 1 => rw [Tone.setRegister_delta _ _ _ _ (by simp)]; simp
    | 2 => rw [Tone.setRegister_stage _ _ _ _ c .volLeft (by simp) (by simp)]; rfl
    | 3 => rw [Tone.setRegister_volume _ _ _ _ (by simp), Channel.zeroCheck_eq]; simp
    | 4 =>
      rw [Tone.setRegister_waveType _ _ _ _ (by simp), show data.extractLsb' 0 3 = BitVec.ofNat 3 data.toNat from rfl]
      simp
    | 5 | 6 | 7 => rw [Tone.setRegister_none _ _ _ _ (by simp)]; rfl

/-! ### The staged write of `delta` (R256, R339) -/

theorem step_setRegister {s : State} {sel data : Byte} {ms : List Move}
    (h : s.host.schedule = .setRegister sel data :: ms) :
    ∃ t, step s = .next t ∧ t.tone = s.tone.setRegister (Config.stagedDraw s.env.draws) sel data ∧
      t.host.schedule = ms := ⟨_, step_eq_move h, rfl, rfl⟩

theorem step_produceSample {s : State} {ms : List Move} (h : s.host.schedule = .produceSample :: ms) :
    ∃ t, step s = .next t ∧ t.tone = (s.tone.produceSample ToneParams.default).tone ∧ t.host.schedule = ms :=
  ⟨_, (step_eq_move h).trans (congrArg Host.Outcome.next (State.produceSample_eq _)), rfl, rfl⟩

/-- Samples leave the staging latch as it was. -/
theorem run_samples {k : Nat} {ms : List Move} {s : State}
    (hs : s.host.schedule = List.replicate k .produceSample ++ ms) :
    ∃ t : State, Host.Core.run Sys2Proof.core k s = .next t ∧ t.tone.stage = s.tone.stage ∧ t.host.schedule = ms := by
  induction k generalizing s with
  | zero => exact ⟨s, rfl, rfl, hs⟩
  | succ k ih =>
    obtain ⟨u, hstep, htone, hsched⟩ := step_produceSample hs
    obtain ⟨t, hrun, hstage, hsched'⟩ := ih hsched
    refine ⟨t, ?_, ?_, hsched'⟩
    · rw [Nat.add_comm, run_add (run_one hstep), hrun]
    · rw [hstage, htone, Tone.produceSample_stage]

/-- Settles O52: the latch is filled with its tag, kept by the samples, and taken by the commit. -/
theorem stagedDeltaCommits : Obligations.StagedDeltaCommits := by
  intro s c low high samples ms hs
  obtain ⟨s1, hstep1, htone1, hsched1⟩ := step_setRegister hs
  obtain ⟨s2, hrun2, hstage2, hsched2⟩ := run_samples hsched1
  obtain ⟨s3, hstep3, htone3, hsched3⟩ := step_setRegister hsched2
  rw [Tone.setRegister_stage _ _ _ _ c .deltaLow (by simp) (by simp)] at htone1
  rw [Tone.setRegister_delta _ _ _ _ (by simp), selectorChan_append] at htone3
  refine ⟨s3, ?_, ?_, hsched3⟩
  · rw [show samples + 2 = 1 + (samples + 1) by omega, run_add (run_one hstep1), run_add hrun2, run_one hstep3]
  · rw [htone3, Tone.chan_setChan, if_pos rfl, Tone.staged_of_tag (by rw [hstage2, htone1]), hstage2, htone1]

end Sys2Proof.Machine
end

section
/-! PROOFS. One sample (48_tone_generator.md section 3): the phase advance and the contribution of a channel, the mix
over all channels and its bound, and the sample that the host is given. -/

namespace Sys2Proof.Machine

open Sys2Proof

/-! ### One channel (R263 to R266, R276, R278) -/

section
variable {c : Channel}

theorem Channel.noise_eq_false_iff : c.noise = false ↔ c.delta.toNat < 0xFF00 := by
  rw [← Bool.not_eq_true, Channel.noise_iff, not_le]

theorem Channel.advance_of_tonal (hs : c.silent = false) (hn : c.noise = false) :
    c.advance = { c with count := c.count + c.delta } := by
  simp [Channel.advance, hs, hn]

theorem Mix.channel_of_tonal (P : ToneParams) (m : Mix) (hs : c.silent = false) (hn : c.noise = false) :
    Mix.channel P m c = m.add c (wave P c.waveType c.count) := by
  simp [Mix.channel, hs, hn]

theorem Mix.channel_of_noise (P : ToneParams) (m : Mix) (hs : c.silent = false) (hn : c.noise = true) :
    Mix.channel P m c = Mix.add { m with rng := noiseAdvance P m.rng } c (noiseLevel (noiseAdvance P m.rng)) := by
  simp [Mix.channel, hs, hn]

end

/-- A channel adds nothing, or one value times each of its volumes; the value is its waveform's or the noise level. -/
theorem Mix.channel_cases (P : ToneParams) (m : Mix) (c : Channel) :
    Mix.channel P m c = m ∨ ∃ (r : BitVec 17) (t : Int), Mix.channel P m c = Mix.add { m with rng := r } c t ∧
      (t = wave P c.waveType c.count ∨ t = noiseLevel r) := by
  cases hs : c.silent with
  | true => exact .inl (Mix.channel_of_silent P m hs)
  | false =>
    cases hn : c.noise with
    | true => exact .inr ⟨_, _, Mix.channel_of_noise P m hs hn, .inr rfl⟩
    | false => exact .inr ⟨m.rng, _, Mix.channel_of_tonal P m hs hn, .inl rfl⟩

/-! ### The mix (R263, R278) -/

/-- The channels in ascending order, each with its phase advanced (R263). -/
theorem toList_mapChannels (f : Channel → Channel) (g : Tone) :
    (mapChannels f g.ch).toList = (List.range 32).map fun k => f (g.chan (BitVec.ofNat 5 k)) := by
  refine List.ext_getElem (by simp) fun k hk _ => ?_
  have hk32 : k < 32 := by simpa using hk
  simp [Tone.chan, Nat.mod_eq_of_lt hk32]

theorem Tone.mix_eq_foldl (P : ToneParams) (g : Tone) :
    g.mix P = (List.range 32).foldl (fun m k => Mix.channel P m (g.chan (BitVec.ofNat 5 k)).advance)
      { rng := g.rng, left := 0, right := 0 } := by
  rw [Tone.mix, toList_mapChannels, List.foldl_map]

/-- Settles O53: silent, tonal or noise, and the sums of one sample. -/
theorem silentChannelIsSkipped : Obligations.SilentChannelIsSkipped := by
  refine ⟨fun P m c => ⟨fun hl hr => ?_, fun hv => ⟨fun hd => ?_, fun hd => ?_, fun hl => ?_, fun hr => ?_⟩⟩,
    Tone.mix_eq_foldl⟩
  · have hs : c.silent = true := c.silent_iff.mpr ⟨hl, hr⟩
    exact ⟨Channel.advance_of_silent hs, Mix.channel_of_silent P m hs⟩
  · have hs : c.silent = false := Bool.eq_false_iff.mpr (mt c.silent_iff.mp hv)
    have hn := Channel.noise_eq_false_iff.mpr hd
    exact ⟨Channel.advance_of_tonal hs hn, Mix.channel_of_tonal P m hs hn⟩
  · have hs : c.silent = false := Bool.eq_false_iff.mpr (mt c.silent_iff.mp hv)
    have hn := c.noise_iff.mpr hd
    exact ⟨Channel.advance_of_noise hn, Mix.channel_of_noise P m hs hn⟩
  · obtain h | ⟨r, t, h, -⟩ := Mix.channel_cases P m c <;> rw [h]
    simp [Mix.add, hl]
  · obtain h | ⟨r, t, h, -⟩ := Mix.channel_cases P m c <;> rw [h]
    simp [Mix.add, hr]

/-- Settles O55: noise mode reads the taps only. -/
theorem noiseNeverUsesWaveforms : Obligations.NoiseNeverUsesWaveforms := by
  intro P Q m c ty hd hA hB
  have hn := c.noise_iff.mpr hd
  have hadvance : noiseAdvance P = noiseAdvance Q := by
    funext rng
    rw [noiseAdvance, noiseAdvance, hA, hB]
  refine ⟨Channel.advance_of_noise hn, ?_⟩
  cases hs : c.silent with
  | true => rw [Mix.channel_of_silent Q m hs, Mix.channel_of_silent P m (c := { c with waveType := ty }) hs]
  | false =>
    rw [Mix.channel_of_noise Q m hs hn, Mix.channel_of_noise P m (c := { c with waveType := ty }) hs hn, hadvance]
    rfl

/-! ### Silence (R264) -/

theorem Tone.mix_of_silent (P : ToneParams) {g : Tone} (h : ∀ c, (g.chan c).silent = true) :
    g.mix P = { rng := g.rng, left := 0, right := 0 } := by
  rw [Tone.mix_eq_foldl]
  refine List.foldl_fixed' (fun k => ?_) _
  exact Mix.channel_of_silent P _ (by rw [Channel.advance_silent, h])

/-- Settles O54. -/
theorem silentGeneratorGivesZero : Obligations.SilentGeneratorGivesZero := by
  intro P g h
  have hmix := Tone.mix_of_silent P h
  refine ⟨?_, ?_, fun c => ?_, ?_, ?_⟩
  · rw [Tone.produceSample, hmix]; rfl
  · rw [Tone.produceSample, hmix]; rfl
  · rw [Tone.produceSample_chan, Channel.advance_of_silent (h c)]
  · rw [Tone.produceSample_rng, hmix]
  · rw [Tone.mixed, hmix]; rfl

/-! ### The bound of the sums (R278) -/

theorem abs_mul_volume_le {t : Int} (ht : |t| ≤ 0x4000) (v : Byte) : |t * v.toNat| ≤ 0x4000 * 255 := by
  have hv : (v.toNat : Int) ≤ 255 := by
    have := v.isLt
    omega
  rw [abs_mul, Nat.abs_cast]
  exact mul_le_mul ht hv (Int.natCast_nonneg _) (by decide)

theorem Mix.abs_channel_le {P : ToneParams} (h4 : ∀ w, |P.wave4 w| ≤ 0x4000) (h6 : ∀ w, |P.wave6 w| ≤ 0x4000)
    (m : Mix) (c : Channel) :
    |(Mix.channel P m c).left| ≤ |m.left| + 0x4000 * 255 ∧ |(Mix.channel P m c).right| ≤ |m.right| + 0x4000 * 255 := by
  obtain h | ⟨r, t, h, ht⟩ := Mix.channel_cases P m c <;> rw [h]
  · exact ⟨le_add_of_nonneg_right (by decide), le_add_of_nonneg_right (by decide)⟩
  · have hbound : |t| ≤ 0x4000 := by
      obtain rfl | rfl := ht
      · exact abs_wave_le h4 h6 _ _
      · exact abs_noiseLevel_le r
    exact ⟨(abs_add_le _ _).trans (add_le_add_right (abs_mul_volume_le hbound _) _),
      (abs_add_le _ _).trans (add_le_add_right (abs_mul_volume_le hbound _) _)⟩

theorem Mix.abs_foldl_channel_le {P : ToneParams} (h4 : ∀ w, |P.wave4 w| ≤ 0x4000) (h6 : ∀ w, |P.wave6 w| ≤ 0x4000)
    (cs : List Channel) (m : Mix) :
    |(cs.foldl (Mix.channel P) m).left| ≤ |m.left| + cs.length * (0x4000 * 255) ∧
      |(cs.foldl (Mix.channel P) m).right| ≤ |m.right| + cs.length * (0x4000 * 255) := by
  induction cs generalizing m with
  | nil => simp
  | cons c cs ih =>
    obtain ⟨hl, hr⟩ := Mix.abs_channel_le h4 h6 m c
    obtain ⟨hl', hr'⟩ := ih (Mix.channel P m c)
    rw [List.foldl_cons, List.length_cons, Nat.cast_add, Nat.cast_one]
    constructor <;> linarith

/-- Settles O58: 32 channels of at most 0x4000 * 255 each. -/
theorem mixerSumsAreBounded : Obligations.MixerSumsAreBounded := by
  intro P g h4 h6
  obtain ⟨hl, hr⟩ := Mix.abs_foldl_channel_le h4 h6 (mapChannels Channel.advance g.ch).toList
    { rng := g.rng, left := 0, right := 0 }
  exact ⟨hl.trans (by simp), hr.trans (by simp)⟩

/-! ### The phase (R266, R283) -/

theorem Channel.advance_iterate {c : Channel} (hs : c.silent = false) (hn : c.noise = false) (k : Nat) :
    Channel.advance^[k] c = { c with count := c.count + BitVec.ofNat 16 (k * c.delta.toNat) } := by
  induction k with
  | zero => simp
  | succ k ih =>
    rw [Function.iterate_succ_apply', ih, Channel.advance_of_tonal (by exact hs) (by exact hn)]
    congr 1
    apply BitVec.eq_of_toNat_eq
    simp only [BitVec.toNat_add, BitVec.toNat_ofNat, Nat.succ_mul]
    omega

/-- Settles O60: 256 advances by 0x0100 are once round. -/
theorem tonalPhaseIsLinear : Obligations.TonalPhaseIsLinear := by
  intro c k hs hd
  have hadvance := Channel.advance_iterate hs (Channel.noise_eq_false_iff.mpr hd)
  refine ⟨?_, fun h => ?_⟩
  · rw [hadvance]
    simp only [BitVec.toNat_add, BitVec.toNat_ofNat]
    omega
  · have hround : BitVec.ofNat 16 (256 * c.delta.toNat) = 0 := by rw [h]; rfl
    rw [hadvance, hround, add_zero]

/-! ### The sample (R279 to R282) -/

theorem clampSample_cases (v : Int) :
    (-32768 ≤ v → v ≤ 32767 → clampSample v = v) ∧ (32767 < v → clampSample v = 32767) ∧
      (v < -32768 → clampSample v = -32768) := by
  unfold clampSample
  refine ⟨?_, ?_, ?_⟩ <;> intros <;> split_ifs <;> omega

theorem clips_eq (v : Int) : clips v = if clampSample v = v then 0 else 1 := by
  unfold clips clampSample
  split_ifs <;> omega

/-- Each value of the pair that the clamp changed is counted (R280). -/
theorem Tone.mixed_clipCount (P : ToneParams) (g : Tone) :
    (g.mixed P).clipCount = g.clipCount +
      (if (g.produceSample P).left = attenuate (g.mix P).left then 0 else 1) +
      (if (g.produceSample P).right = attenuate (g.mix P).right then 0 else 1) := by
  rw [Tone.mixed, clips_eq, clips_eq]
  rfl

/-- Before the 48000th sample nothing is reported and the sample is counted; at it both counters start again (R281). -/
theorem Tone.produceSample_counts (P : ToneParams) (g : Tone) :
    (g.sampleCount ≠ 47999 → (g.produceSample P).report = none ∧
      (g.produceSample P).tone.sampleCount = g.sampleCount + 1 ∧
      (g.produceSample P).tone.clipCount = (g.mixed P).clipCount) ∧
    (g.sampleCount = 47999 →
      (g.produceSample P).report = (if (g.mixed P).clipCount = 0 then none else some (g.mixed P).clipCount) ∧
      (g.produceSample P).tone.sampleCount = 0 ∧ (g.produceSample P).tone.clipCount = 0) := by
  have hmixed : (g.mixed P).sampleCount = g.sampleCount := rfl
  simp only [Tone.produceSample, Tone.tickReport, Tone.tick, hmixed]
  refine ⟨fun h => ?_, fun h => ?_⟩
  · have h' : ¬ g.sampleCount + 1 = 48000 := by omega
    simp [h']
  · simp [h]

theorem Sampled.events_of_report_none {a : Sampled} (h : a.report = none) :
    a.events = [.sample a.left a.right] := by
  rw [Sampled.events, h]

theorem Sampled.events_of_report_some {a : Sampled} {n : Nat} (h : a.report = some n) :
    a.events = [.sample a.left a.right, .clipReport n] := by
  rw [Sampled.events, h]

/-- Settles O59: the sample is the generator's; the machine adds its events to the history. -/
theorem sampleIsClampedAndCounted : Obligations.SampleIsClampedAndCounted := by
  intro s ms hs
  let a := s.tone.produceSample ToneParams.default
  obtain ⟨hl, hlhi, hllo⟩ := clampSample_cases (attenuate (s.tone.mix ToneParams.default).left)
  obtain ⟨hr, hrhi, hrlo⟩ := clampSample_cases (attenuate (s.tone.mix ToneParams.default).right)
  obtain ⟨hbefore, hat⟩ := s.tone.produceSample_counts ToneParams.default
  refine ⟨{ s.setSchedule ms with tone := a.tone, events := a.events ++ s.events }, a.left, a.right,
    (s.tone.mixed ToneParams.default).clipCount,
    (step_eq_move hs).trans (congrArg Host.Outcome.next (State.produceSample_eq _)),
    ⟨hl, hlhi, hllo, hr, hrhi, hrlo, s.tone.mixed_clipCount _⟩, s.tone.produceSample_chan _,
    s.tone.produceSample_rng _, s.tone.produceSample_stage _, fun _ _ => rfl, fun _ => rfl, fun f hf => ?_, rfl,
    fun h => ?_, fun h => ?_⟩
  · cases f
    case tone | host => exact absurd (by decide) hf
    all_goals rfl
  · obtain ⟨hreport, hcounts⟩ := hbefore h
    exact ⟨congrArg (· ++ s.events) (Sampled.events_of_report_none hreport), hcounts⟩
  · obtain ⟨hreport, hsamples, hclips⟩ := hat h
    refine ⟨hsamples, hclips, ?_⟩
    by_cases hn : (s.tone.mixed ToneParams.default).clipCount = 0
    · rw [if_pos hn] at hreport ⊢
      exact congrArg (· ++ s.events) (Sampled.events_of_report_none hreport)
    · rw [if_neg hn] at hreport ⊢
      exact congrArg (· ++ s.events) (Sampled.events_of_report_some hreport)

end Sys2Proof.Machine
end
